-- ==== Sys2Proof/Word.lean ====
section
/-! DEFINITION. The byte type of the block's buffers, streams and operands. -/

namespace Sys2Proof

/-- An 8-bit byte (00_scope.md R8). -/
abbrev Byte := BitVec 8

end Sys2Proof
end

