-- ==== Sys2Proof/Config.lean ====
section
/-! DEFINITION. The block's parameters (00_scope.md R6), the types of the draws that outside agents answer
(R12), and the free values used where no answer is listed. -/

namespace Sys2Proof

/-- `RX_HDR_MODE` (R6, 92_eei_decisions.md D1): what a header read of fewer than 9 bytes does. -/
inductive RxHdrMode where
  | fatal
  | buffered
  deriving DecidableEq, Repr

/-- `TX_HDR_MODE` (R6, D2): what a header write of fewer than 9 bytes does. -/
inductive TxHdrMode where
  | fatal
  | buffered
  deriving DecidableEq, Repr

/-- `TX_CONTINUE` (R6, D3): when the successor of a finished frame starts. -/
inductive TxContinue where
  | nextNotify
  | samePass
  deriving DecidableEq, Repr

/-- A bounded `TXQ_DEPTH` (R6): an integer that is at least 1, so that no block has a queue without room. -/
structure QueueDepth where
  frames   : Nat
  positive : 1 ≤ frames
  deriving DecidableEq, Repr

/-- The parameters of R6. `txqDepth = none` is the spec's "unbounded". `dispatchTypes` is read by the
environment only. -/
structure Params where
  rxHdrMode     : RxHdrMode
  txHdrMode     : TxHdrMode
  txContinue    : TxContinue
  rxBufCap      : BitVec 24
  txqDepth      : Option QueueDepth
  dispatchTypes : List Byte
  deriving DecidableEq, Repr

/-- The values the vectors use unless one says otherwise (95_test_vectors.md, Conventions; R6's reference
values). DESIGN CHOICE for the three modes, which R6 leaves OPEN: log 1. -/
def Params.reference : Params where
  rxHdrMode     := .fatal
  txHdrMode     := .fatal
  txContinue    := .nextNotify
  rxBufCap      := 0xFFFFFF#24
  txqDepth      := none
  dispatchTypes := [0x04#8]

/-- The answer to `SourceRead(n)` (R12). `data b bs` is `Data(b :: bs)`: an answer of at least one byte. -/
inductive ReadAnswer where
  | data (first : Byte) (rest : List Byte)
  | closed
  | wouldBlock
  | error
  deriving DecidableEq, Repr, Inhabited

/-- The answer to `SinkWrite(bs)` (R12). -/
inductive WriteAnswer where
  | accepted (k : Nat)
  | wouldBlock
  | error
  deriving DecidableEq, Repr, Inhabited

/-- The answer to `Alloc(n)` and to `Register(i)` (R12). -/
inductive Answer where
  | ok
  | fail
  deriving DecidableEq, Repr, Inhabited

/-- A frame that a handler asks the block to send: the operands of one TX_ENQUEUE. -/
structure FrameRequest where
  type    : Byte
  flags   : Byte
  sidOp   : BitVec 32
  payload : List Byte
  deriving DecidableEq, Repr, Inhabited

namespace Config

/-- FREE VALUE (log 2): the source's answer to the n-th draw that no listed answer covers. -/
opaque freeRead : Nat → ReadAnswer

/-- FREE VALUE (log 2): the sink's answer to the n-th draw that no listed answer covers. -/
opaque freeWrite : Nat → WriteAnswer

/-- FREE VALUE (log 2): the allocator's answer to the n-th draw that no listed answer covers. -/
opaque freeAlloc : Nat → Answer

/-- FREE VALUE (log 2): the reactor's answer to the n-th registration draw that no listed answer covers. -/
opaque freeRegister : Nat → Answer

/-- FREE VALUE (log 14): the frames that the n-th call of a handler the spec does not describe enqueues. -/
opaque freeHandlerFrames : Nat → List FrameRequest

/-- FREE VALUE (log 14): whether the n-th call of a handler the spec does not describe succeeds. -/
opaque freeHandlerOk : Nat → Bool

end Config

end Sys2Proof
end

