-- ==== Sys2Proof/Syntax.lean ====
section
/-! DEFINITION. The eight commands of 30_encoding.md R96 with their decoded operands. -/

namespace Sys2Proof

/-- Nine header bytes in wire order (30_encoding.md R80): `b0` is the first on the wire. -/
structure HeaderBytes where
  b0 : Byte
  b1 : Byte
  b2 : Byte
  b3 : Byte
  b4 : Byte
  b5 : Byte
  b6 : Byte
  b7 : Byte
  b8 : Byte
  deriving DecidableEq, Repr

/-- The verdict byte of DISPATCH_DONE (R92, R98): 0x00, 0x01, or a reserved value kept as it came. -/
inductive Verdict where
  | accept
  | fail
  | reserved (b : Byte)
  deriving DecidableEq, Repr

/-- One constructor per row of opcode_table.json. -/
inductive Instr where
  /-- CONN_OPEN, format N (R91). -/
  | connOpen
  /-- CONN_CLOSE, format N. -/
  | connClose
  /-- HDR_DECODE, format D (R93). -/
  | hdrDecode (h : HeaderBytes)
  /-- HDR_ENCODE, format H (R94). -/
  | hdrEncode (len : BitVec 24) (type flags : Byte) (sidOp : BitVec 32)
  /-- RX_READY, format N. -/
  | rxReady
  /-- DISPATCH_DONE, format V (R92). -/
  | dispatchDone (v : Verdict)
  /-- TX_ENQUEUE, format Q (R95). P is the payload's length (log 19). -/
  | txEnqueue (type flags : Byte) (sidOp : BitVec 32) (payload : List Byte)
  /-- TX_READY, format N. -/
  | txReady
  deriving DecidableEq, Repr

/-- FRAME_SEND of R100: the source's `frame_send`, one TX_ENQUEUE. -/
def Instr.frameSend (r : FrameRequest) : Instr := .txEnqueue r.type r.flags r.sidOp r.payload

end Sys2Proof
end

