-- ==== Sys2Proof/WellFormed.lean ====
section
/-! DEFINITION. Which terms of `Instr` the command port can carry. -/

namespace Sys2Proof

/-- A reserved verdict is one of 0x02..0xFF (30_encoding.md R98): 0x00 and 0x01 are ACCEPT and FAIL. -/
def Verdict.wellFormed : Verdict → Bool
  | .accept     => true
  | .fail       => true
  | .reserved b => decide (2 ≤ b.toNat)

/-- P is a 32-bit field (R95), so a payload has fewer than 2^32 bytes. -/
def Instr.wellFormed : Instr → Bool
  | .connOpen                 => true
  | .connClose                => true
  | .hdrDecode _              => true
  | .hdrEncode _ _ _ _        => true
  | .rxReady                  => true
  | .dispatchDone v           => v.wellFormed
  | .txEnqueue _ _ _ payload  => decide (payload.length < 2 ^ 32)
  | .txReady                  => true

end Sys2Proof
end

