-- ==== Sys2Proof/Decode.lean ====
section
/-! DEFINITION. The command port's decoder, total on any bytes, and the encoder beside it
(30_encoding.md R90 to R98). -/

namespace Sys2Proof

/-- `{a, b, c}` as a 24-bit big-endian number (00_scope.md R7, R8). -/
def be24 (a b c : Byte) : BitVec 24 := a ++ b ++ c

/-- `{a, b, c, d}` as a 32-bit big-endian number. -/
def be32 (a b c d : Byte) : BitVec 32 := a ++ b ++ c ++ d

/-- `BE_2(v)` (R8). -/
def be16Bytes (v : BitVec 16) : List Byte := [v.extractLsb' 8 8, v.extractLsb' 0 8]

/-- `BE_3(v)` (R8). -/
def be24Bytes (v : BitVec 24) : List Byte :=
  [v.extractLsb' 16 8, v.extractLsb' 8 8, v.extractLsb' 0 8]

/-- `BE_4(v)` (R8). -/
def be32Bytes (v : BitVec 32) : List Byte :=
  [v.extractLsb' 24 8, v.extractLsb' 16 8, v.extractLsb' 8 8, v.extractLsb' 0 8]

/-- The nine bytes in wire order. -/
def HeaderBytes.toList (h : HeaderBytes) : List Byte :=
  [h.b0, h.b1, h.b2, h.b3, h.b4, h.b5, h.b6, h.b7, h.b8]

/-- R92: 0x00 is ACCEPT, 0x01 is FAIL, every other value is reserved. -/
def Verdict.ofByte (b : Byte) : Verdict :=
  if b = 0x00#8 then .accept else if b = 0x01#8 then .fail else .reserved b

/-- The byte that `Verdict.ofByte` reads. -/
def Verdict.toByte : Verdict → Byte
  | .accept     => 0x00#8
  | .fail       => 0x01#8
  | .reserved b => b

/-- What the decoder finds at the front of a byte sequence: a command, a reserved opcode taken as a
1-byte command (R97), or the start of a command whose bytes are not all there. -/
inductive Decoded where
  | instr (i : Instr) (rest : List Byte)
  | reserved (op : Byte) (rest : List Byte)
  | incomplete
  deriving DecidableEq, Repr

/-- Format V (R92). -/
def decodeV : List Byte → Decoded
  | v :: rest => .instr (.dispatchDone (Verdict.ofByte v)) rest
  | _         => .incomplete

/-- Format D (R93). -/
def decodeD : List Byte → Decoded
  | h0 :: h1 :: h2 :: h3 :: h4 :: h5 :: h6 :: h7 :: h8 :: rest =>
    .instr (.hdrDecode ⟨h0, h1, h2, h3, h4, h5, h6, h7, h8⟩) rest
  | _ => .incomplete

/-- Format H (R94). -/
def decodeH : List Byte → Decoded
  | l2 :: l1 :: l0 :: t :: f :: s3 :: s2 :: s1 :: s0 :: rest =>
    .instr (.hdrEncode (be24 l2 l1 l0) t f (be32 s3 s2 s1 s0)) rest
  | _ => .incomplete

/-- Format Q (R95): P payload bytes follow the ten operand bytes. -/
def decodeQ : List Byte → Decoded
  | t :: f :: s3 :: s2 :: s1 :: s0 :: p3 :: p2 :: p1 :: p0 :: rest =>
    if rest.length < (be32 p3 p2 p1 p0).toNat then .incomplete
    else .instr
      (.txEnqueue t f (be32 s3 s2 s1 s0) (rest.take (be32 p3 p2 p1 p0).toNat))
      (rest.drop (be32 p3 p2 p1 p0).toNat)
  | _ => .incomplete

/-- The opcode map (R96) and the reserved opcodes (R97). -/
def decode : List Byte → Decoded
  | [] => .incomplete
  | op :: rest =>
    if op = 0x01#8 then .instr .connOpen rest
    else if op = 0x02#8 then .instr .connClose rest
    else if op = 0x10#8 then decodeD rest
    else if op = 0x11#8 then decodeH rest
    else if op = 0x20#8 then .instr .rxReady rest
    else if op = 0x21#8 then decodeV rest
    else if op = 0x30#8 then decodeQ rest
    else if op = 0x31#8 then .instr .txReady rest
    else .reserved op rest

/-- Byte 0 of a command (R96). -/
def opcode : Instr → Byte
  | .connOpen           => 0x01#8
  | .connClose          => 0x02#8
  | .hdrDecode _        => 0x10#8
  | .hdrEncode _ _ _ _  => 0x11#8
  | .rxReady            => 0x20#8
  | .dispatchDone _     => 0x21#8
  | .txEnqueue _ _ _ _  => 0x30#8
  | .txReady            => 0x31#8

/-- The operand bytes of a command (R91 to R95). -/
def operandBytes : Instr → List Byte
  | .connOpen                   => []
  | .connClose                  => []
  | .hdrDecode h                => h.toList
  | .hdrEncode len t f sidOp    => be24Bytes len ++ [t, f] ++ be32Bytes sidOp
  | .rxReady                    => []
  | .dispatchDone v             => [v.toByte]
  | .txEnqueue t f sidOp bs     => [t, f] ++ be32Bytes sidOp ++ be32Bytes (BitVec.ofNat 32 bs.length) ++ bs
  | .txReady                    => []

/-- The byte sequence of a command (R90). -/
def encode (i : Instr) : List Byte := opcode i :: operandBytes i

/-- A command's length in bytes, as opcode_table.json gives it: 1, 2, 10, or 11 + P. -/
def commandLength : Instr → Nat
  | .connOpen             => 1
  | .connClose            => 1
  | .hdrDecode _          => 10
  | .hdrEncode _ _ _ _    => 10
  | .rxReady              => 1
  | .dispatchDone _       => 2
  | .txEnqueue _ _ _ bs   => 11 + bs.length
  | .txReady              => 1

/-- The bytes of a table word: byte k is bits 8k+7 down to 8k of `w`, with zeros above `nbits` up to
11 bytes, the longest fixed part of a command. -/
def fixedBytes (nbits w : Nat) : List Byte :=
  (List.range (max (nbits / 8) 11)).map fun k =>
    if 8 * k < nbits then BitVec.ofNat 8 (w >>> (8 * k)) else 0x00#8

/-- How many payload bytes of a format Q command lie beyond `bs`, read from its P field. -/
def missingPayload (bs : List Byte) : Nat :=
  match bs with
  | op :: _ :: _ :: _ :: _ :: _ :: _ :: p3 :: p2 :: p1 :: p0 :: rest =>
    if op = 0x30#8 then (be32 p3 p2 p1 p0).toNat - rest.length else 0
  | _ => 0

/-- `fixedBytes` followed by the zero payload bytes that the word's P field asks for. -/
def tableBytes (nbits w : Nat) : List Byte :=
  fixedBytes nbits w ++ List.replicate (missingPayload (fixedBytes nbits w)) 0x00#8

/-- The instruction the decoder reads from a table word. -/
def decodeTableWord (nbits w : Nat) : Option Instr :=
  match decode (tableBytes nbits w) with
  | .instr i _    => some i
  | .reserved _ _ => none
  | .incomplete   => none

/-- Exactly the bytes of the one command that stands in a table word. -/
def tableCommand (nbits w : Nat) : List Byte :=
  match decode (tableBytes nbits w) with
  | .instr i _     => encode i
  | .reserved op _ => [op]
  | .incomplete    => tableBytes nbits w

end Sys2Proof
end

