-- ==== Sys2Proof/Machine/State.lean ====
section
/-! DEFINITION. The block's architectural state (10_state.md), its faults and its reset state. Plain data. -/

namespace Sys2Proof.Machine

/-- `CONN_STATE` (R20). The value 3 is never held. -/
inductive ConnState where
  | idle
  | opened
  | closed
  deriving DecidableEq, Repr

/-- `TD_REASON` (R21, 60_exceptions.md R271). -/
inductive TdReason where
  | none
  | rxClosed
  | rxError
  | rxShortHdr
  | rxOverflow
  | rxAlloc
  | txShortHdr
  | txError
  | txOverflow
  | handlerFail
  | hostClose
  deriving DecidableEq, Repr

/-- `CMD_STATUS` (R31). -/
inductive CmdStatus where
  | ok
  | errAlloc
  | errRegister
  | errTooLong
  | errIllegal
  deriving DecidableEq, Repr

/-- Stored bytes by offset, in one canonical form: offsets strictly rising (`Memory.wf`). An offset that is
not listed holds no value (R44), so no entry can equal what it reads as. -/
abbrev Memory := List Host.Cell

/-- A buffer of `size` bytes (00_scope.md R10): `RX_HDR_BUF`, `RX_BUF` or an entry's payload. -/
structure Buffer where
  size : Nat
  mem  : Memory
  deriving DecidableEq, Repr

/-- The decoded header: the tuple `decode9` gives (40_codec.md R110). -/
structure Header where
  len   : BitVec 24
  type  : Byte
  flags : Byte
  sid   : BitVec 31
  deriving DecidableEq, Repr

/-- The receive frame: `RX_LEN`, `RX_TYPE`, `RX_FLAGS`, `RX_SID` (R26), `RX_XFER` (R27), `RX_BUF` (R28). -/
structure RxFrame where
  hdr  : Header
  xfer : BitVec 24
  buf  : Buffer
  deriving DecidableEq, Repr

/-- `RX_PHASE` (R22) with the receive frame it makes valid (R26, R51): in `awaitHdr` no frame exists. The
value 3 is never held. Log 6. -/
inductive RxPhase where
  | awaitHdr
  | awaitPayload (f : RxFrame)
  | dispatching (f : RxFrame)
  deriving DecidableEq, Repr

/-- A transmit queue entry `E` (R40); `hdr` holds `E.len`, `E.type`, `E.flags` and `E.sid`. -/
structure TxEntry where
  hdr     : Header
  payload : Buffer
  hdrSent : BitVec 4
  xfer    : BitVec 24
  deriving DecidableEq, Repr

/-- One tuple of `DISPATCHED` (00_scope.md R14). -/
structure DispatchedFrame where
  hdr     : Header
  payload : List Byte
  deriving DecidableEq, Repr

/-- The state of one block with the inputs its agents have ready for it. -/
structure State where
  /-- The parameters (00_scope.md R6); no step changes them (70_reset_and_hazards.md R302). -/
  params          : Params
  /-- `CONN_STATE` (R20). -/
  connState       : ConnState
  /-- `TD_REASON` (R21). -/
  tdReason        : TdReason
  /-- `CMD_STATUS` (R31). -/
  cmdStatus       : CmdStatus
  /-- `RX_PHASE` (R22) and the receive frame (R26 to R28). -/
  rxPhase         : RxPhase
  /-- `RX_ARMED` (R23). -/
  rxArmed         : Bool
  /-- `TX_ARMED` (R24). -/
  txArmed         : Bool
  /-- `RX_HDR_BUF` (R25). -/
  rxHdrBuf        : Buffer
  /-- `RX_HDR_CNT` (R25). -/
  rxHdrCnt        : BitVec 4
  /-- `TXQ` (R41), the head first. -/
  txq             : List TxEntry
  /-- `DEC_OUT` (R29); `none` is "holds no value". -/
  decOut          : Option Header
  /-- `ENC_OUT` (R30); `none` is "holds no value". -/
  encOut          : Option HeaderBytes
  /-- `WIRE_OUT` (00_scope.md R14). -/
  wireOut         : List Byte
  /-- `DISPATCHED` (00_scope.md R14). -/
  dispatched      : List DispatchedFrame
  /-- `CLOSE` (00_scope.md R14). -/
  closes          : Nat
  /-- Each command's returned status, in order (00_scope.md R14). Log 11. -/
  statuses        : List CmdStatus
  /-- The bytes taken from the receive byte stream, in order (20_memory.md R60, R68). Log 11. -/
  rxTaken         : List Byte
  /-- Command bytes presented at the command port and not yet taken (30_encoding.md R90). Log 3. -/
  port            : List Byte
  /-- The source's next answers (00_scope.md R12). Log 2. -/
  sourceAnswers   : List ReadAnswer
  /-- The sink's next answers. Log 2. -/
  sinkAnswers     : List WriteAnswer
  /-- The allocator's next answers. Log 2. -/
  allocAnswers    : List Answer
  /-- The reactor's next registration answers. Log 2. -/
  registerAnswers : List Answer
  /-- Which free value the next draw without a listed answer takes. Log 2. -/
  freeDraws       : Nat
  deriving DecidableEq, Repr

/-- The model faults (60_exceptions.md R276): the spec gives the case no meaning, so nothing is claimed past
one. Each is safe: the model stops where the source's behaviour is not defined. -/
inductive Fault where
  /-- `F_NO_CONN`: RX_READY, TX_READY, DISPATCH_DONE, TX_ENQUEUE or CONN_CLOSE while not OPEN. Safe. -/
  | noConn
  /-- `F_NOT_ARMED`: RX_READY or TX_READY delivered while its armed bit is 0. Safe. -/
  | notArmed
  /-- `F_NOT_DISPATCHING`: DISPATCH_DONE outside DISPATCHING. Safe. -/
  | notDispatching
  /-- `F_REOPEN`: CONN_OPEN while OPEN. Safe. -/
  | reopen
  /-- `F_CLOSE_IN_DISPATCH`: CONN_CLOSE in DISPATCHING. Safe. -/
  | closeInDispatch
  /-- `F_SHORT_BUFFER`: the codec given fewer than 9 bytes (40_codec.md R114). Safe. -/
  | shortBuffer
  /-- `F_BUF_RANGE`: a buffer access that breaks 20_memory.md R62 (R277). Safe. -/
  | bufRange
  /-- The model's own: a transmit pass with no head entry, which R54 rules out. Safe. Log 12. -/
  | noHeadEntry
  deriving DecidableEq, Repr

/-- Refusals. -/
inductive Refusal where
  /-- Raised by `exec` for an instruction without a meaning; no arm does so. Safe. -/
  | notModelled (mnemonic : String)
  deriving DecidableEq, Repr

/-- The outcome type of every meaning. -/
abbrev Outcome := Host.Outcome State Fault Refusal

/-- The power-on column of R57 (70_reset_and_hazards.md R300) under parameters `p`, with no input ready. -/
def State.resetWith (p : Params) : State where
  params          := p
  connState       := .idle
  tdReason        := .none
  cmdStatus       := .ok
  rxPhase         := .awaitHdr
  rxArmed         := false
  txArmed         := false
  rxHdrBuf        := ⟨9, []⟩
  rxHdrCnt        := 0#4
  txq             := []
  decOut          := none
  encOut          := none
  wireOut         := []
  dispatched      := []
  closes          := 0
  statuses        := []
  rxTaken         := []
  port            := []
  sourceAnswers   := []
  sinkAnswers     := []
  allocAnswers    := []
  registerAnswers := []
  freeDraws       := 0

/-- Power-on reset with the reference parameters (log 1). -/
def State.reset : State := State.resetWith Params.reference

end Sys2Proof.Machine
end

