-- ==== Sys2Proof/Machine/Flags.lean ====
section
/-! DEFINITION. The block's flag state, the two armed bits (10_state.md R23, R24, R47), and the command
status. -/

namespace Sys2Proof.Machine

/-- `RX_ARMED <- b` (R23). -/
def State.setRxArmed (b : Bool) (s : State) : State := { s with rxArmed := b }

/-- `TX_ARMED <- b` (R24). -/
def State.setTxArmed (b : Bool) (s : State) : State := { s with txArmed := b }

/-- `status <- c` (00_scope.md R11): the command's returned status, kept in `CMD_STATUS` (R31) and in the
observable history (R14). Every command that returns does so once. -/
def State.returnStatus (c : CmdStatus) (s : State) : State :=
  { s with cmdStatus := c, statuses := s.statuses ++ [c] }

/-- A frame's `flags` byte is stored uninterpreted (R47),
and only the environment reads a bit of it, ACK = 0x01 (44_env_dispatch_settings.md R240). -/
def ackFlag (flags : Byte) : Bool := flags.getLsbD 0

end Sys2Proof.Machine
end

