-- ==== Sys2Proof/Machine/Ops.lean ====
section
/-! DEFINITION. The shared operations: buffers (20_memory.md R62), register updates, draws (00_scope.md R12)
and teardown (60_exceptions.md R272), the block's one way of taking an exception. There is no return from a
teardown (R286): a new Connection starts with `State.openConnection`. -/

namespace Sys2Proof.Machine

/-- The canonical form: offsets strictly rising. -/
def Memory.wf : Memory → Bool
  | []                  => true
  | [_]                 => true
  | c :: d :: rest      => decide (c.1 < d.1) && Memory.wf (d :: rest)

/-- The byte at an offset; `none` where none has been written (10_state.md R44). -/
def Memory.load : Memory → Nat → Option Byte
  | [], _             => none
  | (a, b) :: rest, k => if a = k then some b else Memory.load rest k

/-- Write one byte, keeping the canonical form. -/
def Memory.store : Memory → Nat → Byte → Memory
  | [], k, v             => [(k, v)]
  | (a, b) :: rest, k, v =>
    if k < a then (k, v) :: (a, b) :: rest
    else if k = a then (k, v) :: rest
    else (a, b) :: Memory.store rest k v

/-- The bytes at `off`, `off+1`, …; `none` if one of them has not been written. -/
def Memory.loadRange (m : Memory) : Nat → Nat → Option (List Byte)
  | _, 0       => some []
  | off, n + 1 =>
    match m.load off, Memory.loadRange m (off + 1) n with
    | some b, some bs => some (b :: bs)
    | _, _            => none

/-- Write bytes at `off`, `off+1`, …. -/
def Memory.storeRange (m : Memory) : Nat → List Byte → Memory
  | _, []        => m
  | off, b :: bs => Memory.storeRange (m.store off b) (off + 1) bs

/-- A buffer of `n` bytes, none of them written. -/
def Buffer.fresh (n : Nat) : Buffer := ⟨n, []⟩

/-- `MemRead(buf, off, n)` (R62); `none` is F_BUF_RANGE. -/
def Buffer.read (b : Buffer) (off n : Nat) : Option (List Byte) :=
  if off + n ≤ b.size then b.mem.loadRange off n else none

/-- The byte at one offset of a buffer; `none` is F_BUF_RANGE, as in `Buffer.read` (R62; 10_state.md R44). -/
def Buffer.byteAt (b : Buffer) (k : Nat) : Option Byte := if k < b.size then b.mem.load k else none

/-- `MemWrite(buf, off, bs)` (R62); `none` is F_BUF_RANGE. -/
def Buffer.write (b : Buffer) (off : Nat) (bs : List Byte) : Option Buffer :=
  if off + bs.length ≤ b.size then some ⟨b.size, b.mem.storeRange off bs⟩ else none

/-- A buffer that holds exactly `bs`: the copy TX_ENQUEUE takes (42_transmit.md R174). -/
def Buffer.ofBytes (bs : List Byte) : Buffer := ⟨bs.length, Memory.storeRange [] 0 bs⟩

/-- The bytes a buffer holds, in offset order. -/
def Buffer.bytes (b : Buffer) : List Byte := b.mem.map Prod.snd

/-- `RX_PHASE <- p`, with the receive frame that goes with it. -/
def State.setRxPhase (p : RxPhase) (s : State) : State := { s with rxPhase := p }

/-- `RX_HDR_BUF <- b` and `RX_HDR_CNT <- n`. -/
def State.setRxHdr (b : Buffer) (n : BitVec 4) (s : State) : State := { s with rxHdrBuf := b, rxHdrCnt := n }

/-- `TXQ <- q`. -/
def State.setTxq (q : List TxEntry) (s : State) : State := { s with txq := q }

/-- `DEC_OUT <- h` (10_state.md R29). -/
def State.setDecOut (h : Header) (s : State) : State := { s with decOut := some h }

/-- `ENC_OUT <- h` (10_state.md R30). -/
def State.setEncOut (h : HeaderBytes) (s : State) : State := { s with encOut := some h }

/-- `emit Dispatch(…)` (41_receive.md R146). -/
def State.emitDispatch (d : DispatchedFrame) (s : State) : State :=
  { s with dispatched := s.dispatched ++ [d] }

/-- The sink has taken `bs`: they are on `WIRE_OUT` for good (20_memory.md R68). -/
def State.putWire (bs : List Byte) (s : State) : State := { s with wireOut := s.wireOut ++ bs }

/-- The bytes at the command port after some have been taken. -/
def State.setPort (bs : List Byte) (s : State) : State := { s with port := bs }

/-- The bytes an answer of the source delivers. -/
def bytesRead : ReadAnswer → List Byte
  | .data b bs  => b :: bs
  | .closed     => []
  | .wouldBlock => []
  | .error      => []

/-- The counter of free values moves only when a free value is used. -/
def nextFree (listed : Bool) (n : Nat) : Nat := if listed then n else n + 1

/-- The answer the next `SourceRead` gets (R12): the first listed one, else a free value. -/
def State.readAnswer (s : State) : ReadAnswer := s.sourceAnswers.headD (Config.freeRead s.freeDraws)

/-- The state after a `SourceRead`: its answer is used up and the bytes it delivered are gone from the
receive stream (20_memory.md R68). -/
def State.afterRead (s : State) : State :=
  { s with
    sourceAnswers := s.sourceAnswers.tail
    freeDraws     := nextFree (!s.sourceAnswers.isEmpty) s.freeDraws
    rxTaken       := s.rxTaken ++ bytesRead s.readAnswer }

/-- The answer the next `SinkWrite` gets (R12). -/
def State.writeAnswer (s : State) : WriteAnswer := s.sinkAnswers.headD (Config.freeWrite s.freeDraws)

/-- The state after a `SinkWrite`, but for the bytes on the wire (`State.putWire`). -/
def State.afterWrite (s : State) : State :=
  { s with
    sinkAnswers := s.sinkAnswers.tail
    freeDraws   := nextFree (!s.sinkAnswers.isEmpty) s.freeDraws }

/-- The answer the next `Alloc` gets (R12). -/
def State.allocAnswer (s : State) : Answer := s.allocAnswers.headD (Config.freeAlloc s.freeDraws)

/-- The state after an `Alloc` draw. -/
def State.afterAlloc (s : State) : State :=
  { s with
    allocAnswers := s.allocAnswers.tail
    freeDraws    := nextFree (!s.allocAnswers.isEmpty) s.freeDraws }

/-- The answer the next `Register` gets (R12). -/
def State.registerAnswer (s : State) : Answer := s.registerAnswers.headD (Config.freeRegister s.freeDraws)

/-- The state after a `Register` draw. -/
def State.afterRegister (s : State) : State :=
  { s with
    registerAnswers := s.registerAnswers.tail
    freeDraws       := nextFree (!s.registerAnswers.isEmpty) s.freeDraws }

/-- `Teardown(code)` (60_exceptions.md R272). Nothing is saved but the reason, and the status is left as the
command has set it (R274). -/
def State.teardown (r : TdReason) (s : State) : State :=
  { s with
    tdReason  := r
    rxPhase   := .awaitHdr
    rxHdrCnt  := 0#4
    rxHdrBuf  := Buffer.fresh 9
    txq       := []
    rxArmed   := false
    txArmed   := false
    closes    := s.closes + 1
    connState := .closed }

/-- `raise Teardown(code)` (00_scope.md R11): the teardown ends the step. -/
def raiseTeardown (r : TdReason) (s : State) : Outcome := .next (s.teardown r)

/-- The register writes of a successful CONN_OPEN (43_connection.md R210, R212). -/
def State.openConnection (s : State) : State :=
  { s with
    connState := .opened
    tdReason  := .none
    rxPhase   := .awaitHdr
    rxHdrCnt  := 0#4
    rxHdrBuf  := Buffer.fresh 9
    txq       := []
    rxArmed   := true
    txArmed   := false }

/-- A sub-step of a command: `go` continues with a value, `ended` has ended the step. -/
inductive Flow (α : Type) where
  | go (a : α) (s : State)
  | ended (o : Outcome)

/-- Continue after a sub-step unless it has ended the step. -/
def Flow.andThen {α : Type} (x : Flow α) (k : α → State → Outcome) : Outcome :=
  match x with
  | .go a s  => k a s
  | .ended o => o

end Sys2Proof.Machine
end

