-- ==== Sys2Proof/Machine/Operands.lean ====
section
/-! DEFINITION. Operand forms of the command port, and what the host reads from the registers
(10_state.md R45). -/

namespace Sys2Proof.Machine

/-- `sid_op[30:0]`: the reserved bit 31 is dropped (40_codec.md R117, 42_transmit.md R174). -/
def sidOfOperand (sidOp : BitVec 32) : BitVec 31 := sidOp.extractLsb' 0 31

/-- The 32-bit wire word of a stream id: the top bit is 0 (30_encoding.md R85). -/
def wireSid (sid : BitVec 31) : BitVec 32 := 0#1 ++ sid

/-- The header of the frame that TX_ENQUEUE builds (42_transmit.md R170, R174): `len = P`. -/
def enqueueHeader (type flags : Byte) (sidOp : BitVec 32) (payload : List Byte) : Header where
  len   := BitVec.ofNat 24 payload.length
  type  := type
  flags := flags
  sid   := sidOfOperand sidOp

/-- P is at most 2^24-1 (42_transmit.md R171). -/
def fitsLength (payload : List Byte) : Bool := decide (payload.length < 2 ^ 24)

/-- The 2-bit code of `CONN_STATE` (R20). -/
def ConnState.code : ConnState → BitVec 2
  | .idle   => 0#2
  | .opened => 1#2
  | .closed => 2#2

/-- The 2-bit code of `RX_PHASE` (R22). -/
def RxPhase.code : RxPhase → BitVec 2
  | .awaitHdr       => 0#2
  | .awaitPayload _ => 1#2
  | .dispatching _  => 2#2

/-- The 8-bit code of `TD_REASON` (60_exceptions.md R271). -/
def TdReason.code : TdReason → Byte
  | .none        => 0x00#8
  | .rxClosed    => 0x01#8
  | .rxError     => 0x02#8
  | .rxShortHdr  => 0x03#8
  | .rxOverflow  => 0x04#8
  | .rxAlloc     => 0x05#8
  | .txShortHdr  => 0x10#8
  | .txError     => 0x11#8
  | .txOverflow  => 0x12#8
  | .handlerFail => 0x20#8
  | .hostClose   => 0x30#8

/-- The 8-bit code of `CMD_STATUS` (R31). -/
def CmdStatus.code : CmdStatus → Byte
  | .ok          => 0x00#8
  | .errAlloc    => 0x01#8
  | .errRegister => 0x02#8
  | .errTooLong  => 0x03#8
  | .errIllegal  => 0x04#8

/-- The receive frame, where one exists (R26, R51). -/
def RxPhase.frame : RxPhase → Option RxFrame
  | .awaitHdr       => none
  | .awaitPayload f => some f
  | .dispatching f  => some f

/-- `TXQ_COUNT` (R42). -/
def State.txqCount (s : State) : Nat := s.txq.length

/-- The registers of 10_state.md, as the host names them. A buffer register is read byte by byte, `i` being the
offset; `k` is the place of an entry in `TXQ`. -/
inductive HostReg where
  | connState | tdReason | cmdStatus | rxPhase | rxArmed | txArmed
  | rxHdrBuf (i : Nat) | rxHdrCnt
  | rxLen | rxType | rxFlags | rxSid | rxXfer | rxBuf (i : Nat)
  | txqCount
  | txLen (k : Nat) | txType (k : Nat) | txFlags (k : Nat) | txSid (k : Nat)
  | txPayload (k i : Nat) | txHdrSent (k : Nat) | txXfer (k : Nat)
  | decLen | decType | decFlags | decSid
  | encOut
  deriving DecidableEq, Repr

/-- The host's read of a register (R45); `none` where the register holds no value (R57); of a buffer's byte
that is F_BUF_RANGE (R44, log 23). `ENC_OUT` reads as its 72-bit big-endian value (30_encoding.md R80). -/
def State.hostRead (r : HostReg) (s : State) : Option Nat :=
  match r with
  | .connState   => some s.connState.code.toNat
  | .tdReason    => some s.tdReason.code.toNat
  | .cmdStatus   => some s.cmdStatus.code.toNat
  | .rxPhase     => some s.rxPhase.code.toNat
  | .rxArmed     => some s.rxArmed.toNat
  | .txArmed     => some s.txArmed.toNat
  | .rxHdrBuf i  => (s.rxHdrBuf.byteAt i).map (·.toNat)
  | .rxHdrCnt    => some s.rxHdrCnt.toNat
  | .rxLen       => s.rxPhase.frame.map (·.hdr.len.toNat)
  | .rxType      => s.rxPhase.frame.map (·.hdr.type.toNat)
  | .rxFlags     => s.rxPhase.frame.map (·.hdr.flags.toNat)
  | .rxSid       => s.rxPhase.frame.map (·.hdr.sid.toNat)
  | .rxXfer      => s.rxPhase.frame.map (·.xfer.toNat)
  | .rxBuf i     => (s.rxPhase.frame.bind (·.buf.byteAt i)).map (·.toNat)
  | .txqCount    => some s.txqCount
  | .txLen k     => s.txq[k]?.map (·.hdr.len.toNat)
  | .txType k    => s.txq[k]?.map (·.hdr.type.toNat)
  | .txFlags k   => s.txq[k]?.map (·.hdr.flags.toNat)
  | .txSid k     => s.txq[k]?.map (·.hdr.sid.toNat)
  | .txPayload k i => (s.txq[k]?.bind (·.payload.byteAt i)).map (·.toNat)
  | .txHdrSent k => s.txq[k]?.map (·.hdrSent.toNat)
  | .txXfer k    => s.txq[k]?.map (·.xfer.toNat)
  | .decLen      => s.decOut.map (·.len.toNat)
  | .decType     => s.decOut.map (·.type.toNat)
  | .decFlags    => s.decOut.map (·.flags.toNat)
  | .decSid      => s.decOut.map (·.sid.toNat)
  | .encOut      => s.encOut.map fun h => h.toList.foldl (fun n b => 256 * n + b.toNat) 0

end Sys2Proof.Machine
end

