-- ==== Sys2Proof/Machine/Codec.lean ====
section
/-! DEFINITION. The frame header codec and its two commands (40_codec.md). -/

namespace Sys2Proof.Machine

/-- `decode9` (R110): pure and total; the reserved bit `b[5][7]` is not read (R113). -/
def decode9 (h : HeaderBytes) : Header where
  len   := be24 h.b0 h.b1 h.b2
  type  := h.b3
  flags := h.b4
  sid   := h.b5.extractLsb' 0 7 ++ h.b6 ++ h.b7 ++ h.b8

/-- `encode9` (R110): the reserved bit is always 0 (R117). -/
def encode9 (len : BitVec 24) (type flags : Byte) (sidOp : BitVec 32) : HeaderBytes where
  b0 := len.extractLsb' 16 8
  b1 := len.extractLsb' 8 8
  b2 := len.extractLsb' 0 8
  b3 := type
  b4 := flags
  b5 := 0#1 ++ sidOp.extractLsb' 24 7
  b6 := sidOp.extractLsb' 16 8
  b7 := sidOp.extractLsb' 8 8
  b8 := sidOp.extractLsb' 0 8

/-- The nine wire bytes of a stored header (42_transmit.md R182). -/
def Header.wireBytes (h : Header) : List Byte :=
  (encode9 h.len h.type h.flags (wireSid h.sid)).toList

/-- The decoder over a byte sequence: fewer than nine bytes is F_SHORT_BUFFER, never a value (R114). -/
def decodeBytes : List Byte → Except Fault Header
  | b0 :: b1 :: b2 :: b3 :: b4 :: b5 :: b6 :: b7 :: b8 :: _ =>
    .ok (decode9 ⟨b0, b1, b2, b3, b4, b5, b6, b7, b8⟩)
  | _ => .error .shortBuffer

/-- HDR_DECODE (R111, R112). -/
def execHdrDecode (h : HeaderBytes) (s : State) : Outcome :=
  .next ((s.setDecOut (decode9 h)).returnStatus .ok)

/-- HDR_ENCODE (R115, R116). -/
def execHdrEncode (len : BitVec 24) (type flags : Byte) (sidOp : BitVec 32) (s : State) : Outcome :=
  .next ((s.setEncOut (encode9 len type flags sidOp)).returnStatus .ok)

end Sys2Proof.Machine
end

