-- ==== Sys2Proof/Machine/Connection.lean ====
section
/-! DEFINITION. The Connection lifecycle commands (43_connection.md). -/

namespace Sys2Proof.Machine

/-- The draws of CONN_OPEN in order, Alloc, Register(read), Register(write), and what follows each (R210,
R211): a failed draw returns a status and changes no register. -/
def State.connOpen (s : State) : State :=
  match s.allocAnswer with
  | .fail => s.afterAlloc.returnStatus .errAlloc
  | .ok =>
    match s.afterAlloc.registerAnswer with
    | .fail => s.afterAlloc.afterRegister.returnStatus .errRegister
    | .ok =>
      match s.afterAlloc.afterRegister.registerAnswer with
      | .fail => s.afterAlloc.afterRegister.afterRegister.returnStatus .errRegister
      | .ok   => s.afterAlloc.afterRegister.afterRegister.openConnection.returnStatus .ok

/-- CONN_OPEN (R210). -/
def execConnOpen (s : State) : Outcome :=
  if s.connState = .opened then .fault .reopen else .next s.connOpen

/-- CONN_CLOSE (R214, R215). -/
def execConnClose (s : State) : Outcome :=
  if s.connState ≠ .opened then .fault .noConn
  else match s.rxPhase with
    | .dispatching _  => .fault .closeInDispatch
    | .awaitHdr       => raiseTeardown .hostClose (s.returnStatus .ok)
    | .awaitPayload _ => raiseTeardown .hostClose (s.returnStatus .ok)

end Sys2Proof.Machine
end

