-- ==== Sys2Proof/Machine/Receive.lean ====
section
/-! DEFINITION. The receive state machine: RX_READY and DISPATCH_DONE (41_receive.md). -/

namespace Sys2Proof.Machine

/-- The receive frame just after its header is loaded (R136): `RX_XFER = 0`, `RX_BUF` fresh. -/
def RxFrame.start (h : Header) : RxFrame := ⟨h, 0#24, Buffer.fresh h.len.toNat⟩

/-- `dispatch()` (R146). `RX_ARMED` stays 0. -/
def dispatchFrame (f : RxFrame) (s : State) : Outcome :=
  match f.buf.read 0 f.hdr.len.toNat with
  | none    => .fault .bufRange
  | some bs => .next ((s.setRxPhase (.dispatching f)).emitDispatch ⟨f.hdr, bs⟩)

/-- `allocate_rx` (R137, R138): the capacity check comes before the draw (R147). -/
def allocateRx (h : Header) (s : State) : Outcome :=
  if s.params.rxBufCap < h.len then raiseTeardown .rxAlloc s
  else match s.allocAnswer with
    | .fail => raiseTeardown .rxAlloc s.afterAlloc
    | .ok   =>
      if h.len = 0#24 then dispatchFrame (RxFrame.start h) s.afterAlloc
      else .next ((s.afterAlloc.setRxPhase (.awaitPayload (RxFrame.start h))).setRxArmed true)

/-- `header_complete()` (R135): decode the nine buffered bytes; after `RX_HDR_CNT <- 0` no byte of
`RX_HDR_BUF` holds a value (10_state.md R44, log 8). -/
def headerComplete (s : State) : Outcome :=
  match s.rxHdrBuf.read 0 9 with
  | none    => .fault .bufRange
  | some bs =>
    match decodeBytes bs with
    | .error r => .fault r
    | .ok h    => allocateRx h (s.setRxHdr (Buffer.fresh 9) 0#4)

/-- `header_step_fatal()` (R132). -/
def headerStepFatal (s : State) : Outcome :=
  match s.readAnswer with
  | .data b bs =>
    if (b :: bs).length > 9 then raiseTeardown .rxOverflow s.afterRead
    else if (b :: bs).length < 9 then raiseTeardown .rxShortHdr s.afterRead
    else match s.rxHdrBuf.write 0 (b :: bs) with
      | none     => .fault .bufRange
      | some buf => headerComplete (s.afterRead.setRxHdr buf 9#4)
  | .closed     => raiseTeardown .rxClosed s.afterRead
  | .wouldBlock => .next (s.afterRead.setRxArmed true)
  | .error      => raiseTeardown .rxError s.afterRead

/-- `header_step_buffered()` (R133, R134). -/
def headerStepBuffered (s : State) : Outcome :=
  match s.readAnswer with
  | .data b bs =>
    if (b :: bs).length > 9 - s.rxHdrCnt.toNat then raiseTeardown .rxOverflow s.afterRead
    else match s.rxHdrBuf.write s.rxHdrCnt.toNat (b :: bs) with
      | none     => .fault .bufRange
      | some buf =>
        if s.rxHdrCnt.toNat + (b :: bs).length = 9 then headerComplete (s.afterRead.setRxHdr buf 9#4)
        else .next ((s.afterRead.setRxHdr buf
          (BitVec.ofNat 4 (s.rxHdrCnt.toNat + (b :: bs).length))).setRxArmed true)
  | .closed     => raiseTeardown .rxClosed s.afterRead
  | .wouldBlock => .next (s.afterRead.setRxArmed true)
  | .error      => raiseTeardown .rxError s.afterRead

/-- The receive frame after `MemWrite(RX_BUF, RX_XFER, bs)` and `RX_XFER <- RX_XFER + |bs|` (R141). -/
def RxFrame.append (f : RxFrame) (bs : List Byte) : Option RxFrame :=
  match f.buf.write f.xfer.toNat bs with
  | none     => none
  | some buf => some ⟨f.hdr, BitVec.ofNat 24 (f.xfer.toNat + bs.length), buf⟩

/-- `payload_step()` (R139 to R143). -/
def payloadStep (f : RxFrame) (s : State) : Outcome :=
  match s.readAnswer with
  | .data b bs =>
    if (b :: bs).length > f.hdr.len.toNat - f.xfer.toNat then raiseTeardown .rxOverflow s.afterRead
    else match f.append (b :: bs) with
      | none    => .fault .bufRange
      | some f' =>
        if f'.xfer = f'.hdr.len then dispatchFrame f' s.afterRead
        else .next ((s.afterRead.setRxPhase (.awaitPayload f')).setRxArmed true)
  | .closed     => raiseTeardown .rxClosed s.afterRead
  | .wouldBlock => .next (s.afterRead.setRxArmed true)
  | .error      => raiseTeardown .rxError s.afterRead

/-- The delivered part of RX_READY (R130): `RX_ARMED` is cleared first (60_exceptions.md R283), then the
phase decides. In DISPATCHING, which R53 rules out here, no branch of R130 applies. -/
def State.deliverRx (s : State) : Outcome :=
  let s' := (s.setRxArmed false).returnStatus .ok
  match s.rxPhase with
  | .awaitHdr =>
    match s.params.rxHdrMode with
    | .fatal    => headerStepFatal s'
    | .buffered => headerStepBuffered s'
  | .awaitPayload f => payloadStep f s'
  | .dispatching _  => .next s'

/-- RX_READY (R130, R131). -/
def execRxReady (s : State) : Outcome :=
  if s.connState ≠ .opened then .fault .noConn
  else if s.rxArmed = false then .fault .notArmed
  else s.deliverRx

/-- What the verdict does in DISPATCHING (R150; 30_encoding.md R98). -/
def State.verdict (v : Verdict) (s : State) : State :=
  match v with
  | .reserved _ => s.returnStatus .errIllegal
  | .fail       => (s.returnStatus .ok).teardown .handlerFail
  | .accept     => ((s.returnStatus .ok).setRxPhase .awaitHdr).setRxArmed true

/-- DISPATCH_DONE (R150, R151). -/
def execDispatchDone (v : Verdict) (s : State) : Outcome :=
  if s.connState ≠ .opened then .fault .noConn
  else match s.rxPhase with
    | .dispatching _  => .next (s.verdict v)
    | .awaitHdr       => .fault .notDispatching
    | .awaitPayload _ => .fault .notDispatching

end Sys2Proof.Machine
end

