-- ==== Sys2Proof/Machine/Transmit.lean ====
section
/-! DEFINITION. The transmit queue and its writer: TX_ENQUEUE and TX_READY (42_transmit.md). -/

namespace Sys2Proof.Machine

/-- The entry TX_ENQUEUE appends (R170, R172, R174). -/
def TxEntry.ofRequest (type flags : Byte) (sidOp : BitVec 32) (payload : List Byte) : TxEntry where
  hdr     := enqueueHeader type flags sidOp payload
  payload := Buffer.ofBytes payload
  hdrSent := 0#4
  xfer    := 0#24

/-- `|TXQ| == TXQ_DEPTH` (R171); an unbounded queue is never full. -/
def State.queueFull (s : State) : Bool :=
  match s.params.txqDepth with
  | none   => false
  | some d => decide (s.txq.length = d.frames)

/-- Append at the tail and arm if the queue was empty (R172). -/
def State.appendEntry (e : TxEntry) (s : State) : State :=
  (s.setTxq (s.txq ++ [e])).setTxArmed (s.txArmed || s.txq.isEmpty)

/-- TX_ENQUEUE on an open block: the refusals in R170's order, then the append. -/
def State.enqueue (type flags : Byte) (sidOp : BitVec 32) (payload : List Byte) (s : State) : State :=
  if fitsLength payload = false then s.returnStatus .errTooLong
  else if s.queueFull then s.returnStatus .errAlloc
  else match s.allocAnswer with
    | .fail => s.afterAlloc.returnStatus .errAlloc
    | .ok   => (s.afterAlloc.appendEntry (TxEntry.ofRequest type flags sidOp payload)).returnStatus .ok

/-- TX_ENQUEUE (R170, R171). -/
def execTxEnqueue (type flags : Byte) (sidOp : BitVec 32) (payload : List Byte) (s : State) : Outcome :=
  if s.connState ≠ .opened then .fault .noConn
  else .next (s.enqueue type flags sidOp payload)

/-- Write the head entry's progress back into `TXQ[0]`. -/
def State.setHead (e : TxEntry) (s : State) : State := s.setTxq (e :: s.txq.tail)

/-- `E.hdr_sent <- n`. -/
def TxEntry.withHdrSent (e : TxEntry) (n : Nat) : TxEntry := { e with hdrSent := BitVec.ofNat 4 n }

/-- `E.xfer <- n`. -/
def TxEntry.withXfer (e : TxEntry) (n : Nat) : TxEntry := { e with xfer := BitVec.ofNat 24 n }

/-- `header_write_fatal(E)` (R182, R184, R187). A sink that claims more than was offered changes nothing
first (R187, log 9). -/
def headerWriteFatal (e : TxEntry) (s : State) : Flow TxEntry :=
  match s.writeAnswer with
  | .accepted k =>
    if k > 9 then .ended (raiseTeardown .txOverflow s.afterWrite)
    else if k = 9 then
      .go (e.withHdrSent 9) ((s.afterWrite.putWire e.hdr.wireBytes).setHead (e.withHdrSent 9))
    else .ended (raiseTeardown .txShortHdr (s.afterWrite.putWire (e.hdr.wireBytes.take k)))
  | .wouldBlock => .ended (.next (s.afterWrite.setTxArmed true))
  | .error      => .ended (raiseTeardown .txError s.afterWrite)

/-- `header_write_buffered(E)` (R183, R184, R187). -/
def headerWriteBuffered (e : TxEntry) (s : State) : Flow TxEntry :=
  match s.writeAnswer with
  | .accepted k =>
    let left := 9 - e.hdrSent.toNat
    let e'   := e.withHdrSent (e.hdrSent.toNat + k)
    let s'   := (s.afterWrite.putWire ((e.hdr.wireBytes.drop e.hdrSent.toNat).take k)).setHead e'
    if k > left then .ended (raiseTeardown .txOverflow s.afterWrite)
    else if e.hdrSent.toNat + k = 9 then .go e' s'
    else .ended (.next (s'.setTxArmed true))
  | .wouldBlock => .ended (.next (s.afterWrite.setTxArmed true))
  | .error      => .ended (raiseTeardown .txError s.afterWrite)

/-- The header part of `tx_pass()` (R180): nothing to do once all nine bytes are on the wire. -/
def headerPart (e : TxEntry) (s : State) : Flow TxEntry :=
  if 9 ≤ e.hdrSent.toNat then .go e s
  else match s.params.txHdrMode with
    | .fatal    => headerWriteFatal e s
    | .buffered => headerWriteBuffered e s

/-- `payload_write(E)` (R185 to R188, R192). -/
def payloadWrite (e : TxEntry) (s : State) : Flow TxEntry :=
  let rem := e.hdr.len.toNat - e.xfer.toNat
  match e.payload.read e.xfer.toNat rem with
  | none    => .ended (.fault .bufRange)
  | some bs =>
    match s.writeAnswer with
    | .accepted k =>
      let e' := e.withXfer (e.xfer.toNat + k)
      let s' := (s.afterWrite.putWire (bs.take k)).setHead e'
      if k > rem then .ended (raiseTeardown .txOverflow s.afterWrite)
      else if e.xfer.toNat + k = e.hdr.len.toNat then .go e' s'
      else .ended (.next (s'.setTxArmed true))
    | .wouldBlock => .ended (.next (s.afterWrite.setTxArmed true))
    | .error      => .ended (raiseTeardown .txError s.afterWrite)

/-- The payload part of `tx_pass()` (R180): no write when nothing remains (R189). -/
def payloadPart (e : TxEntry) (s : State) : Flow TxEntry :=
  if e.hdr.len.toNat ≤ e.xfer.toNat then .go e s else payloadWrite e s

/-- `tx_pass()` and `complete_head()` (R180, R190, R191) on the queue given, which is `TXQ`. Under SAME_PASS
each repeat has one entry fewer. -/
def txPass : List TxEntry → State → Outcome
  | [], _        => .fault .noHeadEntry
  | e :: rest, s =>
    (headerPart e s).andThen fun e₁ s₁ =>
      (payloadPart e₁ s₁).andThen fun _ s₂ =>
        if rest.isEmpty then .next (s₂.setTxq rest)
        else match s₂.params.txContinue with
          | .nextNotify => .next ((s₂.setTxq rest).setTxArmed true)
          | .samePass   => txPass rest (s₂.setTxq rest)

/-- The delivered part of TX_READY (R180): `TX_ARMED` is cleared first (60_exceptions.md R283). -/
def State.deliverTx (s : State) : Outcome :=
  txPass s.txq ((s.setTxArmed false).returnStatus .ok)

/-- TX_READY (R180, R181). In DISPATCHING it is held (60_exceptions.md R284): the notification is not
delivered, `TX_ARMED` stays 1 and nothing changes. DESIGN CHOICE: log 4. -/
def execTxReady (s : State) : Outcome :=
  if s.connState ≠ .opened then .fault .noConn
  else if s.txArmed = false then .fault .notArmed
  else match s.rxPhase with
    | .dispatching _  => .next s
    | .awaitHdr       => s.deliverTx
    | .awaitPayload _ => s.deliverTx

/-- The bytes of an entry that are not on the wire yet, in the order they will go (R194). -/
def TxEntry.unsent (e : TxEntry) : List Byte :=
  e.hdr.wireBytes.drop e.hdrSent.toNat ++ e.payload.bytes.drop e.xfer.toNat

/-- The unsent bytes of the whole queue, head first (R194). -/
def State.unsent (s : State) : List Byte := s.txq.flatMap TxEntry.unsent

end Sys2Proof.Machine
end

