-- ==== Sys2Proof/Machine/Dispatch.lean ====
section
/-! DEFINITION. One arm per constructor of `Instr`, each a direct call of its meaning. -/

namespace Sys2Proof.Machine

def exec (i : Instr) (s : State) : Host.Outcome State Fault Refusal :=
  match i with
  | .connOpen => Sys2Proof.Machine.execConnOpen s
  | .connClose => Sys2Proof.Machine.execConnClose s
  | .hdrDecode h => Sys2Proof.Machine.execHdrDecode h s
  | .hdrEncode len type flags sidOp => Sys2Proof.Machine.execHdrEncode len type flags sidOp s
  | .rxReady => Sys2Proof.Machine.execRxReady s
  | .dispatchDone v => Sys2Proof.Machine.execDispatchDone v s
  | .txEnqueue type flags sidOp payload => Sys2Proof.Machine.execTxEnqueue type flags sidOp payload s
  | .txReady => Sys2Proof.Machine.execTxReady s

end Sys2Proof.Machine
end

