-- ==== Sys2Proof/Machine/Port.lean ====
section
/-! DEFINITION. The command port: reserved opcodes, and placing commands and answers (30_encoding.md). -/

namespace Sys2Proof.Machine

/-- A reserved opcode, in every `CONN_STATE`: `ERR_ILLEGAL` and no other change (R97). -/
def execReserved (s : State) : Outcome := .next (s.returnStatus .errIllegal)

/-- The state with the one command of a table word at the front of the port. -/
def State.placeCommand (nbits w : Nat) (s : State) : State := s.setPort (tableCommand nbits w ++ s.port)

/-- One line of a command script (R99): a command, and the answers of its draws in the order the step
consumes them. -/
structure ScriptLine where
  command   : Instr
  reads     : List ReadAnswer  := []
  writes    : List WriteAnswer := []
  allocs    : List Answer      := []
  registers : List Answer      := []
  deriving DecidableEq, Repr

/-- Put a script line's answers at the end of the agents' lists. -/
def State.offer (l : ScriptLine) (s : State) : State :=
  { s with
    sourceAnswers   := s.sourceAnswers ++ l.reads
    sinkAnswers     := s.sinkAnswers ++ l.writes
    allocAnswers    := s.allocAnswers ++ l.allocs
    registerAnswers := s.registerAnswers ++ l.registers }

/-- Put a script line's command at the end of the port, and its answers at the end of the agents' lists. -/
def State.issue (l : ScriptLine) (s : State) : State := (s.offer l).setPort (s.port ++ encode l.command)

end Sys2Proof.Machine
end

