-- ==== Sys2Proof/Machine/Step.lean ====
section
/-! DEFINITION. One step: take one command from the port and run it. -/

namespace Sys2Proof.Machine

/-- A step takes the command at the front of the port (30_encoding.md R90) and runs it to completion
(00_scope.md R4). While no whole command is there the block is idle (60_exceptions.md R292). Log 3. -/
def step (s : State) : Host.Outcome State Fault Refusal :=
  match decode s.port with
  | .instr i rest    => exec i (s.setPort rest)
  | .reserved _ rest => execReserved (s.setPort rest)
  | .incomplete      => .next s

/-- The state with one table word's command where `step` takes its next command. Log 3. -/
def State.withFetchWord (s : State) (nbits w : Nat) : State := s.placeCommand nbits w

end Sys2Proof.Machine
end

