-- ==== Sys2Proof/Machine/Environment.lean ====
section
/-! DEFINITION. The environment that 44_env_dispatch_settings.md pairs with the block: the dispatch table, the
SETTINGS handler, `settings_send`, and several blocks side by side (60_exceptions.md R290). It acts on the
block only through DISPATCH_DONE and TX_ENQUEUE. Log 13. -/

namespace Sys2Proof.Machine

/-- A finite map from setting id to value (R236), kept with ids strictly rising. -/
abbrev SettingsMap := List (BitVec 16 × BitVec 32)

/-- `LOCAL_HS` (R235). -/
inductive LocalHs where
  | idle
  | awaitingAck
  deriving DecidableEq, Repr

/-- The SETTINGS handler's state (R235, R236). `freeCalls` counts the calls of handlers the spec does not
describe (log 14). -/
structure Env where
  remote      : SettingsMap
  confirmed   : SettingsMap
  pending     : SettingsMap
  outstanding : Nat
  localHs     : LocalHs
  freeCalls   : Nat
  deriving DecidableEq, Repr

/-- A block with its environment. -/
structure System where
  block : State
  env   : Env
  deriving DecidableEq, Repr

/-- The state at CONN_OPEN (R236): three empty maps, nothing outstanding, Idle. -/
def Env.atOpen (calls : Nat) : Env := ⟨[], [], [], 0, .idle, calls⟩

/-- Set one id, replacing an earlier value. -/
def SettingsMap.set : SettingsMap → BitVec 16 → BitVec 32 → SettingsMap
  | [], i, v             => [(i, v)]
  | (a, b) :: rest, i, v =>
    if i < a then (i, v) :: (a, b) :: rest
    else if i = a then (i, v) :: rest
    else (a, b) :: SettingsMap.set rest i v

/-- The value of an id, where the map has one. -/
def SettingsMap.get : SettingsMap → BitVec 16 → Option (BitVec 32)
  | [], _             => none
  | (a, b) :: rest, i => if a = i then some b else SettingsMap.get rest i

/-- Set ids in list order, so that the last record of an id wins (R241). -/
def SettingsMap.setAll (m : SettingsMap) (records : List (BitVec 16 × BitVec 32)) : SettingsMap :=
  records.foldl (fun m r => m.set r.1 r.2) m

/-- The 6-byte records of a SETTINGS payload, big-endian (R241, 30_encoding.md R86). -/
def parseRecords : List Byte → List (BitVec 16 × BitVec 32)
  | i1 :: i0 :: v3 :: v2 :: v1 :: v0 :: rest => (i1 ++ i0, be32 v3 v2 v1 v0) :: parseRecords rest
  | _ => []

/-- `BE_2(id) ++ BE_4(value)` for each record in order (30_encoding.md R100). -/
def recordBytes (records : List (BitVec 16 × BitVec 32)) : List Byte :=
  records.flatMap fun r => be16Bytes r.1 ++ be32Bytes r.2

/-- The SETTINGS frame type (30_encoding.md R86). -/
def settingsType : Byte := 0x04#8

/-- SETTINGS_ACK (30_encoding.md R100). -/
def settingsAck : Instr := .txEnqueue settingsType 0x01#8 0#32 []

/-- SETTINGS_SEND (30_encoding.md R100). -/
def settingsSendCommand (records : List (BitVec 16 × BitVec 32)) : Instr :=
  .txEnqueue settingsType 0x00#8 0#32 (recordBytes records)

/-- An ACK confirms the most recently sent local settings, if any are outstanding (R239). -/
def Env.confirm (e : Env) : Env :=
  if e.outstanding = 0 then e
  else { e with
    confirmed   := e.pending
    outstanding := e.outstanding - 1
    localHs     := if e.outstanding = 1 then .idle else e.localHs }

/-- The records of a peer's SETTINGS frame go into `REMOTE_SETTINGS` (R241). -/
def Env.storeRemote (records : List (BitVec 16 × BitVec 32)) (e : Env) : Env :=
  { e with remote := e.remote.setAll records }

/-- A local SETTINGS frame has been queued (R246). -/
def Env.sent (records : List (BitVec 16 × BitVec 32)) (e : Env) : Env :=
  { e with
    pending     := SettingsMap.setAll [] records
    outstanding := e.outstanding + 1
    localHs     := .awaitingAck }

/-- A handler's result: the system after it and its verdict. -/
abbrev HandlerOutcome := Host.Outcome (System × Verdict) Fault Refusal

/-- The consumer issues one TX_ENQUEUE; the handler goes on with the status it returned. -/
def System.enqueueThen (i : Instr) (y : System) (k : System → CmdStatus → HandlerOutcome) : HandlerOutcome :=
  match exec i y.block with
  | .next b    => k { y with block := b } b.cmdStatus
  | .fault r   => .fault r
  | .refused r => .refused r

/-- The verdict of a handler that needs its enqueue to succeed (R242). -/
def verdictOf (c : CmdStatus) : Verdict := if c = .ok then .accept else .fail

/-- The SETTINGS handler (R237 to R243). -/
def settingsHandler (fr : DispatchedFrame) (y : System) : HandlerOutcome :=
  if ackFlag fr.hdr.flags = false ∧ fr.hdr.len.toNat % 6 ≠ 0 then .next (y, .fail)
  else if ackFlag fr.hdr.flags = true ∧ fr.hdr.len ≠ 0#24 then .next (y, .fail)
  else if fr.hdr.sid ≠ 0#31 then .next (y, .fail)
  else if ackFlag fr.hdr.flags = true then .next ({ y with env := y.env.confirm }, .accept)
  else System.enqueueThen settingsAck { y with env := y.env.storeRemote (parseRecords fr.payload) }
    fun y' c => .next (y', verdictOf c)

/-- A handler the spec does not describe enqueues what it likes, in order. -/
def System.enqueueAll : List FrameRequest → System → HandlerOutcome
  | [], y      => .next (y, .accept)
  | r :: rs, y => y.enqueueThen (Instr.frameSend r) fun y' _ => System.enqueueAll rs y'

/-- A handler for a registered type other than SETTINGS: its enqueues and its verdict are free values (R230,
R231; log 14). -/
def otherHandler (y : System) : HandlerOutcome :=
  match System.enqueueAll (Config.freeHandlerFrames y.env.freeCalls)
      { y with env := { y.env with freeCalls := y.env.freeCalls + 1 } } with
  | .next (y', _) => .next (y', if Config.freeHandlerOk y.env.freeCalls then .accept else .fail)
  | .fault r      => .fault r
  | .refused r    => .refused r

/-- The dispatch table (R230, R231, R233): an unregistered type is discarded and accepted. -/
def runHandler (fr : DispatchedFrame) (y : System) : HandlerOutcome :=
  if fr.hdr.type ∉ y.block.params.dispatchTypes then .next (y, .accept)
  else if fr.hdr.type = settingsType then settingsHandler fr y
  else otherHandler y

/-- A teardown discards the tables, and a successful CONN_OPEN starts them empty (R236). -/
def Env.follow (before after : State) (e : Env) : Env :=
  if before.closes ≠ after.closes then Env.atOpen e.freeCalls
  else if before.connState ≠ .opened ∧ after.connState = .opened then Env.atOpen e.freeCalls
  else e

/-- The outcome of a system step. -/
abbrev SystemOutcome := Host.Outcome System Fault Refusal

/-- The system after the block has moved to an outcome. -/
def System.afterBlock (y : System) (o : Outcome) : SystemOutcome :=
  match o with
  | .next b    => .next ⟨b, y.env.follow y.block b⟩
  | .fault r   => .fault r
  | .refused r => .refused r

/-- One step of the block inside the system: the host's or the reactor's command. DESIGN CHOICE (log 24): a TX_ENQUEUE at
the port that queues a non-ACK SETTINGS frame is not counted as a local SETTINGS of R235; `System.settingsSend` and
a SETTINGS_SEND line run by `System.runLine` are. -/
def System.step (y : System) : SystemOutcome := y.afterBlock (Sys2Proof.Machine.step y.block)

/-- The consumer takes the frame last dispatched, runs its handler and answers exactly one DISPATCH_DONE
(R231, R232, R234). With no frame at the dispatch port it has nothing to answer (F_NOT_DISPATCHING). -/
def System.consume (y : System) : SystemOutcome :=
  match y.block.rxPhase, y.block.dispatched.getLast? with
  | .dispatching _, some fr =>
    match runHandler fr y with
    | .next (y', v) => y'.afterBlock (exec (.dispatchDone v) y'.block)
    | .fault r      => .fault r
    | .refused r    => .refused r
  | _, _ => .fault .notDispatching

/-- `settings_send` (R246): `true` is ok. Nothing else moves `OUTSTANDING` up (log 24). -/
def System.settingsSend (records : List (BitVec 16 × BitVec 32)) (y : System) :
    Host.Outcome (System × Bool) Fault Refusal :=
  match exec (settingsSendCommand records) y.block with
  | .next b    =>
    if b.cmdStatus = .ok then .next (⟨b, y.env.sent records⟩, true) else .next (⟨b, y.env⟩, false)
  | .fault r   => .fault r
  | .refused r => .refused r

/-- Several blocks (60_exceptions.md R290): block `k` takes one step and the others do not move. `none` where
there is no block `k` or its step does not answer a next state. -/
def stepOne (k : Nat) (blocks : List State) : Option (List State) :=
  match blocks[k]? with
  | none   => none
  | some s =>
    match Sys2Proof.Machine.step s with
    | .next s'   => some (blocks.set k s')
    | .fault _   => none
    | .refused _ => none

end Sys2Proof.Machine
end

