-- ==== Sys2Proof/Machine/Script.lean ====
section
/-! DEFINITION. The command script of 30_encoding.md R99 and its pseudo-commands (R100): one line of text gives
one command with the answers of its draws. Total: a line outside R99's form is `none`. Log 22. -/

namespace Sys2Proof.Machine

/-- The characters that are words of their own. -/
def scriptMarks : List Char := ['(', ')', '[', ']', ',', '=']

/-- Put the word collected so far, which is held in reverse, in front of the words after it. -/
def endWord (word : List Char) (rest : List String) : List String :=
  if word.isEmpty then rest else String.ofList word.reverse :: rest

/-- The words of a line: spaces separate them, and a `;` starts a comment (R99). -/
def scriptWords : List Char → List Char → List String
  | word, []        => endWord word []
  | word, c :: rest =>
    if c = ';' then endWord word []
    else if c = ' ' then endWord word (scriptWords [] rest)
    else if c ∈ scriptMarks then endWord word (String.ofList [c] :: scriptWords [] rest)
    else scriptWords (c :: word) rest

/-- The value of a hex digit. -/
def hexDigit (c : Char) : Option Nat :=
  if '0' ≤ c ∧ c ≤ '9' then some (c.toNat - 48)
  else if 'A' ≤ c ∧ c ≤ 'F' then some (c.toNat - 55)
  else if 'a' ≤ c ∧ c ≤ 'f' then some (c.toNat - 87)
  else none

/-- A number written in `base`, most significant digit first; `n` is the value of the digits before. -/
def digitsFrom (base n : Nat) : List Char → Option Nat
  | []        => some n
  | c :: rest =>
    match hexDigit c with
    | some d => if d < base then digitsFrom base (base * n + d) rest else none
    | none   => none

/-- A number: `0x` and hex digits, or decimal digits. -/
def scriptNumber (word : String) : Option Nat :=
  match word.toList with
  | []                     => none
  | '0' :: 'x' :: c :: rest => digitsFrom 16 0 (c :: rest)
  | c :: rest              => digitsFrom 10 0 (c :: rest)

/-- A number that fits `w` bits. -/
def scriptField (w : Nat) (word : String) : Option (BitVec w) :=
  (scriptNumber word).bind fun n => if n < 2 ^ w then some (BitVec.ofNat w n) else none

/-- A byte written as two hex digits. -/
def scriptByte (word : String) : Option Byte :=
  match word.toList with
  | [a, b] => (digitsFrom 16 0 [a, b]).map (BitVec.ofNat 8)
  | _      => none

/-- The bytes of a list of words, each one a byte. -/
def scriptBytes (words : List String) : Option (List Byte) := words.mapM scriptByte

/-- The words before `stop` and those after it; `none` where it does not occur. -/
def splitAtWord (stop : String) : List String → Option (List String × List String)
  | []        => none
  | w :: rest =>
    if w = stop then some ([], rest)
    else (splitAtWord stop rest).map fun p => (w :: p.1, p.2)

/-- The parts that commas separate. -/
def commaParts : List String → List (List String)
  | []        => [[]]
  | w :: rest =>
    if w = "," then [] :: commaParts rest
    else match commaParts rest with
      | []      => [[w]]
      | p :: ps => (w :: p) :: ps

/-- `Data(hex bytes)`, `Closed`, `WouldBlock` or `Error`. -/
def scriptRead (words : List String) : Option ReadAnswer :=
  if words = ["Closed"] then some .closed
  else if words = ["WouldBlock"] then some .wouldBlock
  else if words = ["Error"] then some .error
  else match words with
    | d :: o :: rest =>
      if d = "Data" ∧ o = "(" ∧ rest.getLast? = some ")" then
        match scriptBytes rest.dropLast with
        | some (b :: bs) => some (.data b bs)
        | _              => none
      else none
    | _ => none

/-- `Accepted(k)`, `WouldBlock` or `Error`. -/
def scriptWrite (words : List String) : Option WriteAnswer :=
  if words = ["WouldBlock"] then some .wouldBlock
  else if words = ["Error"] then some .error
  else match words with
    | [a, o, k, c] =>
      if a = "Accepted" ∧ o = "(" ∧ c = ")" then (scriptNumber k).map .accepted else none
    | _ => none

/-- `ok` or `fail`. -/
def scriptAnswer (word : String) : Option Answer :=
  if word = "ok" then some .ok else if word = "fail" then some .fail else none

/-- `id=value`, one setting of SETTINGS_SEND. -/
def scriptSetting (words : List String) : Option (BitVec 16 × BitVec 32) :=
  match words with
  | [i, e, v] =>
    if e = "=" then (scriptField 16 i).bind fun i => (scriptField 32 v).map fun v => (i, v) else none
  | _ => none

/-- The operands of TX_ENQUEUE and FRAME_SEND: `type=T flags=F sid=S payload=[bs]`. -/
def scriptFrame (words : List String) : Option Instr :=
  match words with
  | w₁ :: w₂ :: t :: w₃ :: w₄ :: f :: w₅ :: w₆ :: s :: w₇ :: w₈ :: w₉ :: rest =>
    if [w₁, w₂, w₃, w₄, w₅, w₆, w₇, w₈, w₉] = ["type", "=", "flags", "=", "sid", "=", "payload", "=", "["] ∧
        rest.getLast? = some "]" then
      (scriptField 8 t).bind fun t => (scriptField 8 f).bind fun f => (scriptField 32 s).bind fun s =>
        (scriptBytes rest.dropLast).map fun bs => .frameSend ⟨t, f, s, bs⟩
    else none
  | _ => none

/-- The operands of HDR_ENCODE: `len=L type=T flags=F sid=S`. -/
def scriptHeader (words : List String) : Option Instr :=
  match words with
  | [w₁, w₂, l, w₃, w₄, t, w₅, w₆, f, w₇, w₈, s] =>
    if [w₁, w₂, w₃, w₄, w₅, w₆, w₇, w₈] = ["len", "=", "type", "=", "flags", "=", "sid", "="] then
      (scriptField 24 l).bind fun l => (scriptField 8 t).bind fun t => (scriptField 8 f).bind fun f =>
        (scriptField 32 s).map fun s => .hdrEncode l t f s
    else none
  | _ => none

/-- The nine header bytes of HDR_DECODE. -/
def scriptHeaderBytes (words : List String) : Option Instr :=
  match scriptBytes words with
  | some [b0, b1, b2, b3, b4, b5, b6, b7, b8] => some (.hdrDecode ⟨b0, b1, b2, b3, b4, b5, b6, b7, b8⟩)
  | _ => none

/-- The settings of SETTINGS_SEND: `(id=v, …)`, none for an empty list. -/
def scriptSettings (words : List String) : Option (List (BitVec 16 × BitVec 32)) :=
  if words = ["(", ")"] then some []
  else match words with
    | o :: rest =>
      if o = "(" ∧ rest.getLast? = some ")" then
        (commaParts rest.dropLast).mapM scriptSetting
      else none
    | [] => none

/-- The command of a line without its draws: the mnemonics of R96 and the pseudo-commands of R100. -/
def scriptCommand (words : List String) : Option Instr :=
  match words with
  | []           => none
  | name :: rest =>
    if name = "CONN_OPEN" ∧ rest = [] then some .connOpen
    else if name = "CONN_CLOSE" ∧ rest = [] then some .connClose
    else if name = "RX_READY" ∧ rest = [] then some .rxReady
    else if name = "TX_READY" ∧ rest = [] then some .txReady
    else if name = "DISPATCH_DONE" ∧ rest = ["ACCEPT"] then some (.dispatchDone .accept)
    else if name = "DISPATCH_DONE" ∧ rest = ["FAIL"] then some (.dispatchDone .fail)
    else if name = "SETTINGS_ACK" ∧ rest = [] then some settingsAck
    else if name = "HDR_DECODE" then scriptHeaderBytes rest
    else if name = "HDR_ENCODE" then scriptHeader rest
    else if name = "TX_ENQUEUE" ∨ name = "FRAME_SEND" then scriptFrame rest
    else if name = "SETTINGS_SEND" then (scriptSettings rest).map settingsSendCommand
    else none

/-- The draws of `[draws: alloc=ok, reg=ok, …]` in order, from the words after `draws:`. -/
def scriptDraws (l : ScriptLine) : List (List String) → Option ScriptLine
  | []                 => some l
  | [d, e, a] :: parts =>
    if e = "=" then
      (scriptAnswer a).bind fun a =>
        if d = "alloc" then scriptDraws { l with allocs := l.allocs ++ [a] } parts
        else if d = "reg" then scriptDraws { l with registers := l.registers ++ [a] } parts
        else none
    else none
  | _ :: _ => none

/-- The answers after `<-`, which only RX_READY and TX_READY take. -/
def scriptAnswers (i : Instr) (words : List String) : Option ScriptLine :=
  match i with
  | .rxReady => ((commaParts words).mapM scriptRead).map fun reads => { command := i, reads := reads }
  | .txReady => ((commaParts words).mapM scriptWrite).map fun writes => { command := i, writes := writes }
  | .connOpen | .connClose | .hdrDecode _ | .hdrEncode _ _ _ _ | .dispatchDone _ | .txEnqueue _ _ _ _ => none

/-- A command with the answers of its reads or writes. -/
def scriptCall (words : List String) : Option ScriptLine :=
  match splitAtWord "<-" words with
  | none                  => (scriptCommand words).map fun i => { command := i }
  | some (words, answers) => (scriptCommand words).bind fun i => scriptAnswers i answers

/-- Where the `[draws: …]` part begins: the words before it, and those inside it with the closing bracket. -/
def splitDraws : List String → List String × Option (List String)
  | []        => ([], none)
  | w :: rest =>
    if w = "[" ∧ rest.head? = some "draws:" then ([], some (rest.drop 1))
    else (w :: (splitDraws rest).1, (splitDraws rest).2)

/-- The assembler of R99: one line of a command script. -/
def assemble (line : String) : Option ScriptLine :=
  match splitDraws (scriptWords [] line.toList) with
  | (words, none)       => scriptCall words
  | (words, some draws) =>
    if draws.getLast? = some "]" then
      (scriptCall words).bind fun l => scriptDraws l (commaParts draws.dropLast)
    else none

/-- Issue a line of a script; `none` where it is not one. -/
def State.issueLine (line : String) (s : State) : Option State := (assemble line).map fun l => s.issue l

/-- The settings of a SETTINGS_SEND line; `none` for any other line. -/
def settingsOfLine (line : String) : Option (List (BitVec 16 × BitVec 32)) :=
  match (splitDraws (scriptWords [] line.toList)).1 with
  | []           => none
  | name :: rest => if name = "SETTINGS_SEND" then scriptSettings rest else none

/-- Run one line of a script at once, in the system: a SETTINGS_SEND line is `settings_send`, with the handshake's
state change (R100; 44_env_dispatch_settings.md R246; P4, step 3), and any other line is its command alone. `none`
where it is not a line. -/
def System.runLine (line : String) (y : System) : Option SystemOutcome :=
  match assemble line, settingsOfLine line with
  | none, _              => none
  | some l, some records =>
    match System.settingsSend records { y with block := y.block.offer l } with
    | .next (y', _) => some (.next y')
    | .fault r      => some (.fault r)
    | .refused r    => some (.refused r)
  | some l, none         => some (y.afterBlock (exec l.command (y.block.offer l)))

end Sys2Proof.Machine
end

