-- ==== Sys2Proof/Safety.lean ====
section
/-! DEFINITION. When a command is enabled, the invariants of 10_state.md R50 to R56, and what a safe run is. -/

namespace Sys2Proof.Machine

/-- The enable condition of each command (R131, R151, R181, R210, R214, R170, R111, R115). -/
def enabled (i : Instr) (s : State) : Prop :=
  match i with
  | .connOpen          => s.connState ≠ .opened
  | .connClose         => s.connState = .opened ∧ ∀ f, s.rxPhase ≠ .dispatching f
  | .hdrDecode _       => True
  | .hdrEncode _ _ _ _ => True
  | .rxReady           => s.connState = .opened ∧ s.rxArmed = true
  | .dispatchDone _    => s.connState = .opened ∧ ∃ f, s.rxPhase = .dispatching f
  | .txEnqueue _ _ _ _ => s.connState = .opened
  | .txReady           => s.connState = .opened ∧ s.txArmed = true ∧ ∀ f, s.rxPhase ≠ .dispatching f

/-- The buffer's written offsets are exactly 0 to n-1 (R44). -/
def Buffer.filledTo (b : Buffer) (n : Nat) : Prop := b.mem.map Prod.fst = List.range n

/-- A receive frame's bounds (R28, R50): a buffer of `RX_LEN` bytes holding the first `RX_XFER` of them. -/
structure RxFrame.Ok (f : RxFrame) : Prop where
  size   : f.buf.size = f.hdr.len.toNat
  xfer   : f.xfer.toNat ≤ f.hdr.len.toNat
  filled : f.buf.filledTo f.xfer.toNat

/-- An entry's bounds and progress (R40, R50, R55). -/
structure TxEntry.Ok (mode : TxHdrMode) (e : TxEntry) : Prop where
  size    : e.payload.size = e.hdr.len.toNat
  filled  : e.payload.filledTo e.hdr.len.toNat
  hdrSent : e.hdrSent.toNat ≤ 9
  xfer    : e.xfer.toNat ≤ e.hdr.len.toNat
  order   : e.xfer.toNat ≠ 0 → e.hdrSent.toNat = 9
  pending : ¬ (e.hdrSent.toNat = 9 ∧ e.xfer = e.hdr.len)
  whole   : mode = .fatal → e.hdrSent.toNat = 0 ∨ e.hdrSent.toNat = 9

/-- The invariants that hold between steps (10_state.md section 6). -/
structure State.Inv (s : State) : Prop where
  /-- R25, R44, R51: between steps 0 to 8 header bytes are held, none under FATAL. -/
  hdrSize   : s.rxHdrBuf.size = 9
  hdrFilled : s.rxHdrBuf.filledTo s.rxHdrCnt.toNat
  hdrCnt    : s.rxHdrCnt.toNat ≤ 8
  hdrFatal  : s.params.rxHdrMode = .fatal → s.rxHdrCnt = 0#4
  hdrPhase  : s.rxPhase ≠ .awaitHdr → s.rxHdrCnt = 0#4
  /-- R52: a frame that waits for payload is incomplete. -/
  waiting   : ∀ f, s.rxPhase = .awaitPayload f → f.Ok ∧ f.xfer.toNat < f.hdr.len.toNat
  /-- R52, R146: a dispatched frame is complete and is the last one handed to the consumer. -/
  handed    : ∀ f, s.rxPhase = .dispatching f →
    f.Ok ∧ f.xfer = f.hdr.len ∧ s.dispatched.getLast? = some ⟨f.hdr, f.buf.bytes⟩
  /-- R50: the queue is bounded. -/
  depth     : ∀ d, s.params.txqDepth = some d → s.txq.length ≤ d.frames
  /-- R50, R55. -/
  entries   : ∀ e ∈ s.txq, e.Ok s.params.txHdrMode
  untouched : ∀ e ∈ s.txq.tail, e.hdrSent = 0#4 ∧ e.xfer = 0#24
  /-- R53. -/
  rxArmed   : s.connState = .opened → (s.rxArmed = true ↔ ∀ f, s.rxPhase ≠ .dispatching f)
  /-- R54. -/
  txArmed   : s.connState = .opened → (s.txArmed = true ↔ s.txq ≠ [])
  /-- R56. -/
  down      : s.connState ≠ .opened →
    s.rxArmed = false ∧ s.txArmed = false ∧ s.txq = [] ∧ s.rxPhase = .awaitHdr ∧ s.rxHdrCnt = 0#4
  /-- R21: a reason is held exactly while the Connection is torn down. -/
  reason    : s.tdReason = .none ↔ s.connState ≠ .closed
  /-- R31: `CMD_STATUS` is the status last returned, 0x00 before the first. -/
  status    : s.statuses.getLast?.getD .ok = s.cmdStatus

/-- How many bytes the next RX_READY asks the source for (R132, R133, R139). -/
def State.readRequest (s : State) : Nat :=
  match s.rxPhase with
  | .awaitHdr =>
    match s.params.rxHdrMode with
    | .fatal    => 9
    | .buffered => 9 - s.rxHdrCnt.toNat
  | .awaitPayload f => f.hdr.len.toNat - f.xfer.toNat
  | .dispatching _  => 0

/-- The answers with which the sink takes all that is left of an entry: one for the header, if it is not all
sent, and one for the payload, if any is left (R182, R183, R185, R189). -/
def TxEntry.takeAll (e : TxEntry) : List WriteAnswer :=
  (if e.hdrSent.toNat < 9 then [.accepted (9 - e.hdrSent.toNat)] else []) ++
  (if e.xfer.toNat < e.hdr.len.toNat then [.accepted (e.hdr.len.toNat - e.xfer.toNat)] else [])

/-- The environment's invariant (44_env_dispatch_settings.md R235). -/
def Env.Inv (e : Env) : Prop := e.localHs = .awaitingAck ↔ 0 < e.outstanding

/-- The faults that mark a modelling error, not a broken contract (60_exceptions.md R277; log 12). -/
def Fault.isModelError : Fault → Bool
  | .noConn          => false
  | .notArmed        => false
  | .notDispatching  => false
  | .reopen          => false
  | .closeInDispatch => false
  | .shortBuffer     => true
  | .bufRange        => true
  | .noHeadEntry     => true

/-- A run of `n` steps from `s` is safe when none of its steps faults or refuses. -/
def SafeFor : Nat → State → Prop
  | 0, _     => True
  | n + 1, s => ∃ s', step s = .next s' ∧ SafeFor n s'

end Sys2Proof.Machine
end

