-- ==== Sys2Proof/Certificates/Slice0/Obligations.lean ====
section
/-! DEFINITION. The statements for the provers. Rules R<n> are those of spec/. -/

open Sys2Proof Sys2Proof.Machine

/-! ### The codec -/

/-- R81 and R83: `length` and `stream_id` are the big-endian values of their bytes, the reserved bit left out. -/
def Obligations.HeaderFieldsAreBigEndian : Prop :=
  ∀ h : HeaderBytes,
    (decode9 h).len.toNat = h.b0.toNat * 65536 + h.b1.toNat * 256 + h.b2.toNat ∧
    (decode9 h).sid.toNat =
      h.b5.toNat % 128 * 2 ^ 24 + h.b6.toNat * 2 ^ 16 + h.b7.toNat * 2 ^ 8 + h.b8.toNat

/-- R113: a header with the reserved bit set decodes to the same tuple as with the bit cleared. -/
def Obligations.DecodeIgnoresReservedBit : Prop :=
  ∀ h : HeaderBytes,
    decode9 { h with b5 := h.b5 ||| 0x80#8 } = decode9 h ∧ decode9 { h with b5 := h.b5 &&& 0x7F#8 } = decode9 h

/-- R117: the encoder's reserved bit is 0 for every operand, and bit 31 of `sid_op` is dropped. -/
def Obligations.EncodeClearsReservedBit : Prop :=
  ∀ (len : BitVec 24) (type flags : Byte) (sidOp : BitVec 32),
    (encode9 len type flags sidOp).b5.getLsbD 7 = false ∧
    encode9 len type flags (sidOp ||| 0x80000000#32) = encode9 len type flags sidOp

/-- R118: both round trips of the codec. -/
def Obligations.CodecRoundTrips : Prop :=
  (∀ (len : BitVec 24) (type flags : Byte) (sid : BitVec 31),
    decode9 (encode9 len type flags (wireSid sid)) = ⟨len, type, flags, sid⟩) ∧
  ∀ h : HeaderBytes,
    encode9 (decode9 h).len (decode9 h).type (decode9 h).flags (wireSid (decode9 h).sid) =
      { h with b5 := h.b5 &&& 0x7F#8 }

/-- R119: `encode9` is injective below 2^31, and `decode9` maps exactly two inputs to each output. -/
def Obligations.CodecIsInjectiveUpToReservedBit : Prop :=
  (∀ (len len' : BitVec 24) (type type' flags flags' : Byte) (sidOp sidOp' : BitVec 32),
    sidOp.toNat < 2 ^ 31 → sidOp'.toNat < 2 ^ 31 →
    encode9 len type flags sidOp = encode9 len' type' flags' sidOp' →
    len = len' ∧ type = type' ∧ flags = flags' ∧ sidOp = sidOp') ∧
  ∀ h h' : HeaderBytes,
    { h with b5 := h.b5 ^^^ 0x80#8 } ≠ h ∧
    (decode9 h' = decode9 h ↔ h' = h ∨ h' = { h with b5 := h.b5 ^^^ 0x80#8 })

/-- R112: HDR_DECODE completes in every state and writes only `DEC_OUT` and `CMD_STATUS`; the returned status is
also recorded in the history of R14 (log 11). -/
def Obligations.HdrDecodeWritesOnlyItsResult : Prop :=
  ∀ (h : HeaderBytes) (s : State),
    exec (.hdrDecode h) s =
      .next { s with decOut := some (decode9 h), cmdStatus := .ok, statuses := s.statuses ++ [.ok] }

/-- R116: HDR_ENCODE completes in every state and writes only `ENC_OUT` and `CMD_STATUS` (history: log 11). The
bytes are those of R110: the length, the type, the flags and the stream id with its top bit cleared, each
big-endian. -/
def Obligations.HdrEncodeWritesOnlyItsResult : Prop :=
  ∀ (len : BitVec 24) (type flags : Byte) (sidOp : BitVec 32) (s : State), ∃ b : HeaderBytes,
    exec (.hdrEncode len type flags sidOp) s =
      .next { s with encOut := some b, cmdStatus := .ok, statuses := s.statuses ++ [.ok] } ∧
    b.b0.toNat * 65536 + b.b1.toNat * 256 + b.b2.toNat = len.toNat ∧ b.b3 = type ∧ b.b4 = flags ∧
    b.b5.toNat * 2 ^ 24 + b.b6.toNat * 2 ^ 16 + b.b7.toNat * 2 ^ 8 + b.b8.toNat = sidOp.toNat % 2 ^ 31

/-! ### The command port -/

/-- Decoding the encoding of any well-formed command gives it back and leaves the bytes behind it (R90 to R96). -/
def Obligations.EncodedCommandsDecode : Prop :=
  ∀ (i : Instr) (rest : List Byte), i.wellFormed = true → decode (encode i ++ rest) = .instr i rest

/-- Every decoded command is well-formed, and its encoding is exactly the bytes taken, as many as the opcode
table gives it (R90 to R96). -/
def Obligations.DecodedCommandsEncodeBack : Prop :=
  ∀ (bs : List Byte) (i : Instr) (rest : List Byte), decode bs = .instr i rest →
    i.wellFormed = true ∧ bs = encode i ++ rest ∧ (encode i).length = commandLength i

/-- A few of the spec's own command encodings (95_test_vectors.md, 30_encoding.md R100). -/
def Obligations.SampleEncodingsDecode : Prop :=
  decode [0x01#8] = .instr .connOpen [] ∧
  decode [0x02#8] = .instr .connClose [] ∧
  decode [0x20#8] = .instr .rxReady [] ∧
  decode [0x31#8] = .instr .txReady [] ∧
  decode [0x21#8, 0x01#8] = .instr (.dispatchDone .fail) [] ∧
  decode [0x11#8, 0x12#8, 0x34#8, 0x56#8, 0x01#8, 0x25#8, 0x00#8, 0x00#8, 0x00#8, 0x01#8] =
    .instr (.hdrEncode 0x123456#24 0x01#8 0x25#8 1#32) [] ∧
  decode [0x10#8, 0x12#8, 0x34#8, 0x56#8, 0x01#8, 0x25#8, 0x80#8, 0x00#8, 0x00#8, 0x01#8] =
    .instr (.hdrDecode ⟨0x12#8, 0x34#8, 0x56#8, 0x01#8, 0x25#8, 0x80#8, 0x00#8, 0x00#8, 0x01#8⟩) [] ∧
  decode [0x30#8, 0x04#8, 0x01#8, 0x00#8, 0x00#8, 0x00#8, 0x00#8, 0x00#8, 0x00#8, 0x00#8, 0x00#8] =
    .instr settingsAck []

/-- R97: a reserved opcode is a 1-byte command that returns ERR_ILLEGAL and changes no other state (the history
of statuses is log 11), in every state. -/
def Obligations.ReservedOpcodesAreIllegal : Prop :=
  ∀ (s : State) (op : Byte) (rest : List Byte), s.port = op :: rest →
    op ∉ [0x01#8, 0x02#8, 0x10#8, 0x11#8, 0x20#8, 0x21#8, 0x30#8, 0x31#8] →
    step s = .next { s with port := rest, cmdStatus := .errIllegal, statuses := s.statuses ++ [.errIllegal] }

/-- A step runs the decoded command on the state with its bytes taken from the port; with no whole command there
it changes nothing (R4, R90, R292; the port is the model's form of them, log 3). -/
def Obligations.StepRunsDecodedCommand : Prop :=
  ∀ s : State,
    (∀ i rest, decode s.port = .instr i rest → step s = exec i { s with port := rest }) ∧
    (decode s.port = .incomplete → step s = .next s)

/-! ### The whole machine -/

/-- The invariants of R50 to R56 hold after every step if they hold before it, whatever the draws answer. -/
def Obligations.StepKeepsInvariant : Prop :=
  ∀ s t : State, s.Inv → step s = .next t → t.Inv

/-- Power-on reset meets the invariants, under every choice of the parameters. -/
def Obligations.ResetMeetsInvariant : Prop :=
  ∀ p : Params, (State.resetWith p).Inv

/-- R62 and R277: under the invariants no step makes a buffer access out of range; and no step runs into the
other two faults that mark a modelling error (log 12). -/
def Obligations.InvariantRulesOutModelErrors : Prop :=
  ∀ (s : State) (r : Fault), s.Inv → step s = .fault r → r.isModelError = false

/-- Every command completes in every state that meets the invariants and the command's enable condition (R131,
R151, R170, R181, R210, R214, R111, R115). -/
def Obligations.EnabledCommandsComplete : Prop :=
  ∀ (i : Instr) (s : State), s.Inv → enabled i s → ∃ t, exec i s = .next t

/-- R300: the power-on state. -/
def Obligations.PowerOnState : Prop :=
  ∀ p : Params,
    (State.resetWith p).connState = .idle ∧ (State.resetWith p).tdReason.code = 0x00#8 ∧
    (State.resetWith p).cmdStatus.code = 0x00#8 ∧ (State.resetWith p).rxPhase = .awaitHdr ∧
    (State.resetWith p).rxArmed = false ∧ (State.resetWith p).txArmed = false ∧
    (State.resetWith p).rxHdrCnt = 0#4 ∧ (State.resetWith p).txq = [] ∧
    (∀ k, (State.resetWith p).rxHdrBuf.mem.load k = none) ∧
    (State.resetWith p).decOut = none ∧ (State.resetWith p).encOut = none ∧
    (State.resetWith p).wireOut = [] ∧ (State.resetWith p).dispatched = [] ∧ (State.resetWith p).closes = 0

/-- R302: the parameters are fixed for the block's lifetime: reset takes them as given, and no step, CONN_OPEN
among them, changes them. -/
def Obligations.ParametersNeverChange : Prop :=
  (∀ p : Params, (State.resetWith p).params = p) ∧
  ∀ s t : State, step s = .next t → t.params = s.params

/-- R29, R30 and R120: only HDR_DECODE writes `DEC_OUT` and only HDR_ENCODE writes `ENC_OUT`. -/
def Obligations.CodecResultsSurviveOtherCommands : Prop :=
  ∀ (i : Instr) (s t : State), exec i s = .next t →
    ((∀ h, i ≠ .hdrDecode h) → t.decOut = s.decOut) ∧
    ((∀ len type flags sidOp, i ≠ .hdrEncode len type flags sidOp) → t.encOut = s.encOut)

/-- R175: bytes reach `WIRE_OUT` only in TX_READY steps, and no other command draws from the sink. What is on the
wire stays (R68). -/
def Obligations.OnlyTxReadyWritesTheWire : Prop :=
  ∀ (i : Instr) (s t : State), exec i s = .next t →
    s.wireOut <+: t.wireOut ∧ (i ≠ .txReady → t.wireOut = s.wireOut ∧ t.sinkAnswers = s.sinkAnswers)

/-- R282, R213: a read happens only in RX_READY. The bytes taken from the receive stream stay taken (R68). -/
def Obligations.OnlyRxReadyReadsTheSource : Prop :=
  ∀ (i : Instr) (s t : State), exec i s = .next t →
    s.rxTaken <+: t.rxTaken ∧ (i ≠ .rxReady → t.rxTaken = s.rxTaken ∧ t.sourceAnswers = s.sourceAnswers)

/-- R273, R274: a command tears the Connection down at most once, only an open one, and returns OK; after it
nothing is armed, queued or being received. A command that tears nothing down leaves `CONN_STATE` alone, but for
CONN_OPEN. -/
def Obligations.TeardownHappensOncePerConnection : Prop :=
  ∀ (i : Instr) (s t : State), exec i s = .next t →
    (t.closes = s.closes ∧ (i ≠ .connOpen → t.connState = s.connState)) ∨
    (t.closes = s.closes + 1 ∧ s.connState = .opened ∧ t.connState = .closed ∧ t.tdReason ≠ .none ∧
      t.cmdStatus = .ok ∧ t.rxArmed = false ∧ t.txArmed = false ∧ t.txq = [] ∧ t.rxPhase = .awaitHdr ∧
      t.rxHdrCnt = 0#4)

/-! ### The Connection's life -/

/-- R212: a successful CONN_OPEN gives the CONN_OPEN column of R57, from IDLE and from CLOSED alike, and leaves
everything else alone but the answers its three draws used. -/
def Obligations.ConnOpenStartsConnection : Prop :=
  ∀ s : State, s.connState ≠ .opened → s.allocAnswer = .ok → s.afterAlloc.registerAnswer = .ok →
    s.afterAlloc.afterRegister.registerAnswer = .ok →
    ∃ t, exec .connOpen s = .next t ∧
      t = { s with
        connState := .opened, tdReason := .none, cmdStatus := .ok, rxPhase := .awaitHdr
        rxArmed := true, txArmed := false, rxHdrCnt := 0#4, rxHdrBuf := Buffer.fresh 9, txq := []
        statuses := s.statuses ++ [.ok], allocAnswers := t.allocAnswers
        registerAnswers := t.registerAnswers, freeDraws := t.freeDraws }

/-- R211: a failed draw of CONN_OPEN returns ERR_ALLOC or ERR_REGISTER and changes no register but `CMD_STATUS`. -/
def Obligations.ConnOpenFailureChangesNothing : Prop :=
  ∀ s : State, s.connState ≠ .opened →
    ∃ t, exec .connOpen s = .next t ∧
      (s.allocAnswer = .fail → t.cmdStatus = .errAlloc) ∧
      (s.allocAnswer = .ok →
        s.afterAlloc.registerAnswer = .fail ∨ s.afterAlloc.afterRegister.registerAnswer = .fail →
        t.cmdStatus = .errRegister) ∧
      (t.cmdStatus ≠ .ok →
        t = { s with
          cmdStatus := t.cmdStatus, statuses := s.statuses ++ [t.cmdStatus]
          allocAnswers := t.allocAnswers, registerAnswers := t.registerAnswers, freeDraws := t.freeDraws })

/-- R131, R151 and R215: which commands are contract faults in which states, and with which fault. TX_READY's are
in `TxReadyFaultsOrIsHeld`, TX_ENQUEUE's here and in `EnqueueRefusalsChangeNothing`. -/
def Obligations.ContractFaults : Prop :=
  ∀ s : State,
    (s.connState = .opened → exec .connOpen s = .fault .reopen) ∧
    (s.connState ≠ .opened → ∀ (v : Verdict) (type flags : Byte) (sidOp : BitVec 32) (payload : List Byte),
      exec .connClose s = .fault .noConn ∧ exec .rxReady s = .fault .noConn ∧
      exec .txReady s = .fault .noConn ∧ exec (.dispatchDone v) s = .fault .noConn ∧
      exec (.txEnqueue type flags sidOp payload) s = .fault .noConn) ∧
    (s.connState = .opened → ∀ f, s.rxPhase = .dispatching f → exec .connClose s = .fault .closeInDispatch) ∧
    (s.connState = .opened → s.rxArmed = false → exec .rxReady s = .fault .notArmed) ∧
    (s.connState = .opened → (∀ f, s.rxPhase ≠ .dispatching f) →
      ∀ v, exec (.dispatchDone v) s = .fault .notDispatching)

/-- R272: what a teardown does, and that it leaves `CMD_STATUS`, the codec results, the wire and the dispatched
frames alone. -/
def Obligations.TeardownReleasesEverything : Prop :=
  ∀ (r : TdReason) (s : State),
    raiseTeardown r s =
      .next { s with
        tdReason := r, rxPhase := .awaitHdr, rxHdrCnt := 0#4, rxHdrBuf := Buffer.fresh 9, txq := []
        rxArmed := false, txArmed := false, closes := s.closes + 1, connState := .closed }

/-- CONN_CLOSE on an open block that is not dispatching completes: status OK, then the teardown of R272 with
reason HOST_CLOSE; nothing is added to `WIRE_OUT` (R214). -/
def Obligations.ConnCloseTearsDown : Prop :=
  ∀ s : State, s.connState = .opened → (∀ f, s.rxPhase ≠ .dispatching f) →
    exec .connClose s =
      .next { s with
        cmdStatus := .ok, statuses := s.statuses ++ [.ok], tdReason := .hostClose, rxPhase := .awaitHdr
        rxHdrCnt := 0#4, rxHdrBuf := Buffer.fresh 9, txq := [], rxArmed := false, txArmed := false
        closes := s.closes + 1, connState := .closed }

/-! ### Receiving -/

/-- What RX_READY leaves alone: the codec results, the wire, the port, the sink's and the reactor's answers; and,
unless it tears the Connection down, the transmit queue with every payload byte in it, `TX_ARMED` and
`TD_REASON`, and `RX_HDR_BUF` with its count while a payload is awaited (R130). The status is OK. -/
def Obligations.RxReadyFrame : Prop :=
  ∀ s t : State, exec .rxReady s = .next t →
    t.params = s.params ∧ t.decOut = s.decOut ∧ t.encOut = s.encOut ∧ t.wireOut = s.wireOut ∧
    t.port = s.port ∧ t.sinkAnswers = s.sinkAnswers ∧ t.registerAnswers = s.registerAnswers ∧
    s.dispatched <+: t.dispatched ∧ t.cmdStatus = .ok ∧ t.statuses = s.statuses ++ [.ok] ∧
    (t.connState = .opened →
      t.txq = s.txq ∧ t.txArmed = s.txArmed ∧ t.tdReason = s.tdReason ∧ t.closes = s.closes ∧
      (s.rxPhase ≠ .awaitHdr → t.rxHdrBuf = s.rxHdrBuf ∧ t.rxHdrCnt = s.rxHdrCnt))

/-- R144 and R145: in both receiving phases a peer close tears down with RX_CLOSED, an error with RX_ERROR, and a
would-block answer changes nothing but `RX_ARMED`, `CMD_STATUS` and the answer used. -/
def Obligations.ReadAnswersWithoutData : Prop :=
  ∀ s : State, enabled .rxReady s → (∀ f, s.rxPhase ≠ .dispatching f) →
    (s.readAnswer = .closed →
      exec .rxReady s = .next ((s.afterRead.returnStatus .ok).teardown .rxClosed)) ∧
    (s.readAnswer = .error →
      exec .rxReady s = .next ((s.afterRead.returnStatus .ok).teardown .rxError)) ∧
    (s.readAnswer = .wouldBlock →
      ∃ t, exec .rxReady s = .next t ∧
        t = { s with
          rxArmed := true, cmdStatus := .ok, statuses := s.statuses ++ [.ok]
          sourceAnswers := t.sourceAnswers, freeDraws := t.freeDraws })

/-- R140: an answer longer than the request, in any phase and mode, tears down with RX_OVERFLOW; the bytes are
gone from the receive stream (log 10) and none is stored. -/
def Obligations.OversizedReadTearsDown : Prop :=
  ∀ (s : State) (b : Byte) (bs : List Byte), enabled .rxReady s → (∀ f, s.rxPhase ≠ .dispatching f) →
    s.readAnswer = .data b bs → s.readRequest < (b :: bs).length →
    exec .rxReady s = .next ((s.afterRead.returnStatus .ok).teardown .rxOverflow) ∧
    (s.afterRead).rxTaken = s.rxTaken ++ b :: bs

/-- R132 under FATAL: a header read of 1 to 8 bytes tears down with RX_SHORT_HDR, the bytes consumed (R278). -/
def Obligations.ShortHeaderReadIsFatal : Prop :=
  ∀ (s : State) (b : Byte) (bs : List Byte), enabled .rxReady s → s.rxPhase = .awaitHdr →
    s.params.rxHdrMode = .fatal → s.readAnswer = .data b bs → (b :: bs).length < 9 →
    exec .rxReady s = .next ((s.afterRead.returnStatus .ok).teardown .rxShortHdr) ∧
    (s.afterRead).rxTaken = s.rxTaken ++ b :: bs

/-- R134: under BUFFERED an incomplete header stays in AWAIT_HDR, keeps the bytes received so far, in order, and
arms the next read. The bytes behind them hold no value (R44). -/
def Obligations.BufferedHeaderAccumulates : Prop :=
  ∀ (s : State) (b : Byte) (bs : List Byte), s.Inv → enabled .rxReady s → s.rxPhase = .awaitHdr →
    s.params.rxHdrMode = .buffered → s.readAnswer = .data b bs → s.rxHdrCnt.toNat + (b :: bs).length < 9 →
    ∃ t, exec .rxReady s = .next t ∧
      t.rxPhase = .awaitHdr ∧ t.rxArmed = true ∧ t.cmdStatus = .ok ∧
      t.rxHdrCnt.toNat = s.rxHdrCnt.toNat + (b :: bs).length ∧
      t.rxHdrBuf.read 0 t.rxHdrCnt.toNat = some (s.rxHdrBuf.bytes ++ b :: bs) ∧
      (∀ k, t.rxHdrCnt.toNat ≤ k → t.rxHdrBuf.mem.load k = none) ∧
      t.dispatched = s.dispatched ∧ t.allocAnswers = s.allocAnswers

/-- R136 and R138: when the ninth header byte arrives and the allocation succeeds, a zero-length frame is
dispatched in this very step, and a longer one has its registers loaded and its read armed; no payload read
happens in this step. Both header modes. -/
def Obligations.CompleteHeaderStartsFrame : Prop :=
  ∀ (s : State) (b : Byte) (bs : List Byte) (hb : HeaderBytes), s.Inv → enabled .rxReady s →
    s.rxPhase = .awaitHdr → s.readAnswer = .data b bs → s.rxHdrBuf.bytes ++ b :: bs = hb.toList →
    (decode9 hb).len.toNat ≤ s.params.rxBufCap.toNat → s.afterRead.allocAnswer = .ok →
    ∃ t, exec .rxReady s = .next t ∧ t.cmdStatus = .ok ∧ t.connState = .opened ∧ t.rxHdrCnt = 0#4 ∧
      t.sourceAnswers = s.sourceAnswers.tail ∧ t.rxTaken = s.rxTaken ++ b :: bs ∧
      ((decode9 hb).len = 0#24 →
        t.rxPhase = .dispatching (RxFrame.start (decode9 hb)) ∧ t.rxArmed = false ∧
        t.dispatched = s.dispatched ++ [⟨decode9 hb, []⟩]) ∧
      ((decode9 hb).len ≠ 0#24 →
        t.rxPhase = .awaitPayload ⟨decode9 hb, 0#24, Buffer.fresh (decode9 hb).len.toNat⟩ ∧
        t.rxArmed = true ∧ t.dispatched = s.dispatched)

/-- R137: a frame longer than `RX_BUF_CAP` tears down with RX_ALLOC without a draw, and so does a failed draw. -/
def Obligations.ReceiveAllocationFailureTearsDown : Prop :=
  ∀ (s : State) (b : Byte) (bs : List Byte) (hb : HeaderBytes), s.Inv → enabled .rxReady s →
    s.rxPhase = .awaitHdr → s.readAnswer = .data b bs → s.rxHdrBuf.bytes ++ b :: bs = hb.toList →
    (s.params.rxBufCap.toNat < (decode9 hb).len.toNat →
      exec .rxReady s = .next ((s.afterRead.returnStatus .ok).teardown .rxAlloc)) ∧
    ((decode9 hb).len.toNat ≤ s.params.rxBufCap.toNat → s.afterRead.allocAnswer = .fail →
      exec .rxReady s = .next ((s.afterRead.afterAlloc.returnStatus .ok).teardown .rxAlloc))

/-- R141 and R143: bytes that do not complete the payload are stored behind the ones held, at offsets
`RX_XFER..`, the frame stays in AWAIT_PAYLOAD and the next read is armed. Bytes already held do not change. -/
def Obligations.PayloadChunkIsStored : Prop :=
  ∀ (s : State) (f : RxFrame) (b : Byte) (bs : List Byte), s.Inv → enabled .rxReady s →
    s.rxPhase = .awaitPayload f → s.readAnswer = .data b bs →
    f.xfer.toNat + (b :: bs).length < f.hdr.len.toNat →
    ∃ t f', exec .rxReady s = .next t ∧ t.rxPhase = .awaitPayload f' ∧ t.rxArmed = true ∧ t.cmdStatus = .ok ∧
      f'.hdr = f.hdr ∧ f'.xfer.toNat = f.xfer.toNat + (b :: bs).length ∧
      f'.buf.read f.xfer.toNat (b :: bs).length = some (b :: bs) ∧
      (∀ k, (k < f.xfer.toNat ∨ f.xfer.toNat + (b :: bs).length ≤ k) → f'.buf.mem.load k = f.buf.mem.load k) ∧
      t.dispatched = s.dispatched ∧ t.rxTaken = s.rxTaken ++ b :: bs

/-- R142 and R146: the bytes that complete the payload dispatch the frame in the same step, with exactly the
bytes received, and the read stays disarmed. -/
def Obligations.LastChunkDispatchesFrame : Prop :=
  ∀ (s : State) (f : RxFrame) (b : Byte) (bs : List Byte), s.Inv → enabled .rxReady s →
    s.rxPhase = .awaitPayload f → s.readAnswer = .data b bs →
    f.xfer.toNat + (b :: bs).length = f.hdr.len.toNat →
    ∃ t f', exec .rxReady s = .next t ∧ t.rxPhase = .dispatching f' ∧ f'.hdr = f.hdr ∧ f'.xfer = f.hdr.len ∧
      t.rxArmed = false ∧ t.cmdStatus = .ok ∧ t.dispatched = s.dispatched ++ [⟨f.hdr, f.buf.bytes ++ b :: bs⟩]

/-- R149: whatever the sizes in which a payload arrives, and whatever would-block answers stand between, the
dispatched payload is the bytes in stream order, and dispatch happens in the step that delivers the last of
them. -/
def Obligations.PayloadIsReassembled : Prop :=
  ∀ (answers later : List ReadAnswer) (behind : List Byte) (s : State) (f : RxFrame), s.Inv →
    s.connState = .opened → s.rxPhase = .awaitPayload f →
    (∀ a ∈ answers, a ≠ .closed ∧ a ≠ .error) → (∃ b bs, answers.getLast? = some (.data b bs)) →
    f.xfer.toNat + (answers.flatMap bytesRead).length = f.hdr.len.toNat →
    s.sourceAnswers = answers ++ later → s.port = List.replicate answers.length 0x20#8 ++ behind →
    ∃ t f', core.run answers.length s = .next t ∧ t.rxPhase = .dispatching f' ∧ f'.hdr = f.hdr ∧
      t.dispatched = s.dispatched ++ [⟨f.hdr, f.buf.bytes ++ answers.flatMap bytesRead⟩] ∧
      t.sourceAnswers = later ∧ t.port = behind

/-- R150 and R151, with R98's reserved verdicts: what DISPATCH_DONE does in every state. -/
def Obligations.DispatchDoneFollowsTheVerdict : Prop :=
  ∀ (s : State) (v : Verdict),
    (s.connState ≠ .opened → exec (.dispatchDone v) s = .fault .noConn) ∧
    (s.connState = .opened → (∀ f, s.rxPhase ≠ .dispatching f) →
      exec (.dispatchDone v) s = .fault .notDispatching) ∧
    (s.connState = .opened → ∀ f, s.rxPhase = .dispatching f →
      exec (.dispatchDone .accept) s =
        .next { s with
          cmdStatus := .ok, statuses := s.statuses ++ [.ok], rxPhase := .awaitHdr, rxArmed := true } ∧
      exec (.dispatchDone .fail) s = .next ((s.returnStatus .ok).teardown .handlerFail) ∧
      ∀ b, exec (.dispatchDone (.reserved b)) s =
        .next { s with cmdStatus := .errIllegal, statuses := s.statuses ++ [.errIllegal] })

/-! ### Transmitting -/

/-- R172 and R174: an accepted frame becomes the tail with nothing of it sent, holding a copy of the payload and
`sid_op` without its top bit; `TX_ARMED` is set when the queue was empty. Nothing else changes but the status
and the answer used. -/
def Obligations.EnqueueAppendsAndArms : Prop :=
  ∀ (s : State) (type flags : Byte) (sidOp : BitVec 32) (payload : List Byte),
    s.connState = .opened → payload.length < 2 ^ 24 → s.queueFull = false → s.allocAnswer = .ok →
    ∃ t e, exec (.txEnqueue type flags sidOp payload) s = .next t ∧
      e.hdr.len.toNat = payload.length ∧ e.hdr.type = type ∧ e.hdr.flags = flags ∧
      e.hdr.sid.toNat = sidOp.toNat % 2 ^ 31 ∧ e.payload.size = payload.length ∧
      e.payload.read 0 payload.length = some payload ∧ e.hdrSent = 0#4 ∧ e.xfer = 0#24 ∧
      t = { s with
        txq := s.txq ++ [e], txArmed := if s.txq = [] then true else s.txArmed
        cmdStatus := .ok, statuses := s.statuses ++ [.ok]
        allocAnswers := t.allocAnswers, freeDraws := t.freeDraws }

/-- R171: the refusals of TX_ENQUEUE, in order, each leaving every register but `CMD_STATUS` alone; a payload
that is too long or a full queue makes no draw. -/
def Obligations.EnqueueRefusalsChangeNothing : Prop :=
  ∀ (s : State) (type flags : Byte) (sidOp : BitVec 32) (payload : List Byte),
    (s.connState ≠ .opened → exec (.txEnqueue type flags sidOp payload) s = .fault .noConn) ∧
    (s.connState = .opened → 2 ^ 24 ≤ payload.length →
      exec (.txEnqueue type flags sidOp payload) s =
        .next { s with cmdStatus := .errTooLong, statuses := s.statuses ++ [.errTooLong] }) ∧
    (s.connState = .opened → payload.length < 2 ^ 24 → s.params.txqDepth.map QueueDepth.frames = some s.txq.length →
      exec (.txEnqueue type flags sidOp payload) s =
        .next { s with cmdStatus := .errAlloc, statuses := s.statuses ++ [.errAlloc] }) ∧
    (s.connState = .opened → payload.length < 2 ^ 24 → s.params.txqDepth.map QueueDepth.frames ≠ some s.txq.length →
      s.allocAnswer = .fail →
      ∃ t, exec (.txEnqueue type flags sidOp payload) s = .next t ∧
        t = { s with
          cmdStatus := .errAlloc, statuses := s.statuses ++ [.errAlloc]
          allocAnswers := t.allocAnswers, freeDraws := t.freeDraws })

/-- R181: TX_READY off an open block or unarmed faults; in DISPATCHING it is held, which the model takes as a
step that changes nothing, `TX_ARMED` staying 1 (DESIGN CHOICE, log 4). -/
def Obligations.TxReadyFaultsOrIsHeld : Prop :=
  ∀ s : State,
    (s.connState ≠ .opened → exec .txReady s = .fault .noConn) ∧
    (s.connState = .opened → s.txArmed = false → exec .txReady s = .fault .notArmed) ∧
    (s.connState = .opened → s.txArmed = true → ∀ f, s.rxPhase = .dispatching f → exec .txReady s = .next s)

/-- What TX_READY leaves alone: everything on the receive side unless it tears down, and always the codec results,
the dispatched frames, the port and the other agents' answers (R180). -/
def Obligations.TxReadyFrame : Prop :=
  ∀ s t : State, s.Inv → enabled .txReady s → exec .txReady s = .next t →
    t.params = s.params ∧ t.decOut = s.decOut ∧ t.encOut = s.encOut ∧ t.dispatched = s.dispatched ∧
    t.rxTaken = s.rxTaken ∧ t.port = s.port ∧ t.sourceAnswers = s.sourceAnswers ∧
    t.allocAnswers = s.allocAnswers ∧ t.registerAnswers = s.registerAnswers ∧ t.cmdStatus = .ok ∧
    (t.connState = .opened →
      t.rxPhase = s.rxPhase ∧ t.rxArmed = s.rxArmed ∧ t.rxHdrBuf = s.rxHdrBuf ∧ t.rxHdrCnt = s.rxHdrCnt ∧
      t.tdReason = s.tdReason ∧ t.closes = s.closes)

/-- R190 and R191: when the sink takes all that is left of the head, its bytes go out and it is released. The
writer stays disarmed if the queue is then empty, and is armed for the successor under NEXT_NOTIFY. -/
def Obligations.FinishedHeadIsReleased : Prop :=
  ∀ (s : State) (e : TxEntry) (rest : List TxEntry) (later : List WriteAnswer), s.Inv →
    enabled .txReady s → s.txq = e :: rest → s.sinkAnswers = e.takeAll ++ later →
    (rest = [] ∨ s.params.txContinue = .nextNotify) →
    exec .txReady s =
      .next { s with
        txq := rest, txArmed := !rest.isEmpty, wireOut := s.wireOut ++ e.unsent, sinkAnswers := later
        cmdStatus := .ok, statuses := s.statuses ++ [.ok] }

/-- R191 under SAME_PASS: when the head is finished and a successor exists, the step goes on with it as if it were
the head. -/
def Obligations.SamePassGoesOnWithSuccessor : Prop :=
  ∀ (s : State) (e : TxEntry) (rest : List TxEntry) (later : List WriteAnswer), s.Inv →
    enabled .txReady s → s.txq = e :: rest → s.sinkAnswers = e.takeAll ++ later → rest ≠ [] →
    s.params.txContinue = .samePass →
    exec .txReady s =
      exec .txReady { s with txq := rest, wireOut := s.wireOut ++ e.unsent, sinkAnswers := later }

/-- R194: in every step on an open block that does not tear it down, what is on the wire followed by what is still
to be sent grows at its end by an enqueued frame's header and payload, and by nothing else: frames go out whole,
in enqueue order, without interleaving. -/
def Obligations.FramesGoOutInEnqueueOrder : Prop :=
  ∀ s t : State, s.Inv → s.connState = .opened → step s = .next t → t.connState = .opened →
    ∃ added, t.wireOut ++ t.unsent = s.wireOut ++ s.unsent ++ added ∧
      (added = [] ∨ ∃ type flags sidOp payload rest,
        decode s.port = .instr (.txEnqueue type flags sidOp payload) rest ∧ t.cmdStatus = .ok ∧
        added = (enqueueHeader type flags sidOp payload).wireBytes ++ payload)

/-- R196 and R278: a teardown discards the queue; what the step put on the wire before it is the next unsent bytes
(a possibly truncated frame) and stays there. -/
def Obligations.TeardownTruncatesTheWire : Prop :=
  ∀ (i : Instr) (s t : State), s.Inv → exec i s = .next t → t.closes = s.closes + 1 →
    t.txq = [] ∧ ∃ sent, t.wireOut = s.wireOut ++ sent ∧ sent <+: s.unsent

/-- R187: in any pass, a sink that claims more than it was offered tears the Connection down with TX_OVERFLOW,
and nothing changes first. Header writes of both modes, and payload writes. -/
def Obligations.OversizedWriteTearsDown : Prop :=
  ∀ (s : State) (e : TxEntry) (k : Nat), e.Ok s.params.txHdrMode → s.writeAnswer = .accepted k →
    (e.hdrSent.toNat < 9 → 9 - e.hdrSent.toNat < k →
      headerPart e s = .ended (.next (s.afterWrite.teardown .txOverflow)) ∧
      s.afterWrite.wireOut = s.wireOut) ∧
    (e.xfer.toNat < e.hdr.len.toNat → e.hdr.len.toNat - e.xfer.toNat < k →
      payloadPart e s = .ended (.next (s.afterWrite.teardown .txOverflow)))

/-- R182 under FATAL: a header write that takes fewer than nine bytes tears down with TX_SHORT_HDR, and the bytes
taken stay on the wire. -/
def Obligations.ShortHeaderWriteIsFatal : Prop :=
  ∀ (s : State) (e : TxEntry) (rest : List TxEntry) (k : Nat), enabled .txReady s →
    s.txq = e :: rest → s.params.txHdrMode = .fatal → e.hdrSent = 0#4 → s.writeAnswer = .accepted k → k < 9 →
    ∃ t, exec .txReady s = .next t ∧ t.tdReason = .txShortHdr ∧ t.connState = .closed ∧ t.txq = [] ∧
      t.closes = s.closes + 1 ∧ t.cmdStatus = .ok ∧ t.wireOut = s.wireOut ++ e.hdr.wireBytes.take k

/-- R184 and R186: a would-block on the step's first write, of a header in either mode or of a payload, changes
nothing but the status and the answer used, and the writer stays armed; an error tears down with TX_ERROR. -/
def Obligations.WriteAnswersWithoutBytes : Prop :=
  ∀ (s : State) (e : TxEntry) (rest : List TxEntry), s.Inv → enabled .txReady s → s.txq = e :: rest →
    (s.writeAnswer = .wouldBlock →
      exec .txReady s = .next (s.afterWrite.returnStatus .ok)) ∧
    (s.writeAnswer = .error →
      exec .txReady s = .next ((s.afterWrite.returnStatus .ok).teardown .txError))

/-- R183 under BUFFERED: a partial header write, of no byte too, keeps the head with its progress and arms the
writer; the next write goes on at `hdr_sent`. -/
def Obligations.BufferedHeaderWriteResumes : Prop :=
  ∀ (s : State) (e : TxEntry) (rest : List TxEntry) (k : Nat), s.Inv → enabled .txReady s →
    s.txq = e :: rest → s.params.txHdrMode = .buffered → s.writeAnswer = .accepted k →
    e.hdrSent.toNat + k < 9 →
    ∃ t e', exec .txReady s = .next t ∧ t.txq = e' :: rest ∧ e'.hdr = e.hdr ∧ e'.payload = e.payload ∧
      e'.xfer = e.xfer ∧ e'.hdrSent.toNat = e.hdrSent.toNat + k ∧ t.txArmed = true ∧ t.cmdStatus = .ok ∧
      t.wireOut = s.wireOut ++ (e.hdr.wireBytes.drop e.hdrSent.toNat).take k

/-- R180 with R182 and R183: a header write that takes the rest of the header puts those bytes on the
wire, and the same step goes on as with a head whose header is sent. Both header modes. -/
def Obligations.HeaderWriteGoesOnToPayload : Prop :=
  ∀ (s : State) (e : TxEntry) (rest : List TxEntry) (k : Nat), s.Inv → enabled .txReady s →
    s.txq = e :: rest → s.writeAnswer = .accepted k → 0 < k → e.hdrSent.toNat + k = 9 →
    exec .txReady s =
      exec .txReady { s.afterWrite with
        txq := { e with hdrSent := 9#4 } :: rest
        wireOut := s.wireOut ++ e.hdr.wireBytes.drop e.hdrSent.toNat }

/-- R192 and R188: a partial payload write, of no byte too, keeps the head with its progress, leaves the entries
behind it alone and arms the writer. -/
def Obligations.PartialPayloadWriteKeepsHead : Prop :=
  ∀ (s : State) (e : TxEntry) (rest : List TxEntry) (k : Nat), s.Inv → enabled .txReady s →
    s.txq = e :: rest → e.hdrSent = 9#4 → s.writeAnswer = .accepted k →
    e.xfer.toNat + k < e.hdr.len.toNat →
    ∃ t e', exec .txReady s = .next t ∧ t.txq = e' :: rest ∧ e'.hdr = e.hdr ∧ e'.payload = e.payload ∧
      e'.hdrSent = e.hdrSent ∧ e'.xfer.toNat = e.xfer.toNat + k ∧ t.txArmed = true ∧ t.cmdStatus = .ok ∧
      t.wireOut = s.wireOut ++ (e.payload.bytes.drop e.xfer.toNat).take k

/-! ### Buffers -/

/-- R62: `MemRead` fails exactly outside the buffer or at a byte never written and else returns the bytes there,
and `MemWrite` fails exactly outside the buffer; a write is read back and leaves every other byte alone, and keeps
the canonical form. -/
def Obligations.BufferAccessObeysItsRange : Prop :=
  ∀ (b : Buffer) (off n : Nat) (bs : List Byte),
    (b.read off n = none ↔ b.size < off + n ∨ ∃ k, k < n ∧ b.mem.load (off + k) = none) ∧
    (∀ read, b.read off n = some read →
      read.length = n ∧ ∀ k, k < n → b.mem.load (off + k) = read[k]?) ∧
    (b.write off bs = none ↔ b.size < off + bs.length) ∧
    ∀ b', b.write off bs = some b' → b'.size = b.size ∧ b'.read off bs.length = some bs ∧
      (∀ k, (k < off ∨ off + bs.length ≤ k) → b'.mem.load k = b.mem.load k) ∧
      (b.mem.wf = true → b'.mem.wf = true)

/-! ### The environment (44_env_dispatch_settings.md) -/

/-- R241, R242 and R245: a well-formed non-ACK SETTINGS frame on an open block stores its records in order, so
that the last of an id wins, and queues exactly one ACK frame if the queue takes it; otherwise the handler fails
and nothing is queued. -/
def Obligations.SettingsAreStoredAndAcknowledged : Prop :=
  ∀ (fr : DispatchedFrame) (records : List (BitVec 16 × BitVec 32)) (y : System),
    ackFlag fr.hdr.flags = false → fr.hdr.sid.toNat = 0 → fr.payload = recordBytes records →
    fr.hdr.len.toNat = 6 * records.length → y.block.connState = .opened →
    ∃ y' v, settingsHandler fr y = .next (y', v) ∧ y'.block.wireOut = y.block.wireOut ∧
      (∀ id, y'.env.remote.get id =
        match (records.reverse.find? fun r => r.1 == id) with
        | some r => some r.2
        | none   => y.env.remote.get id) ∧
      y'.env.confirmed = y.env.confirmed ∧ y'.env.pending = y.env.pending ∧
      y'.env.outstanding = y.env.outstanding ∧ y'.env.localHs = y.env.localHs ∧
      (y.block.queueFull = false → y.block.allocAnswer = .ok → v = .accept ∧
        ∃ e, y'.block.txq = y.block.txq ++ [e] ∧ e.hdr = ⟨0#24, 0x04#8, 0x01#8, 0#31⟩ ∧ e.payload.bytes = []) ∧
      (y.block.queueFull = true ∨ y.block.allocAnswer = .fail → v = .fail ∧ y'.block.txq = y.block.txq)

/-- R239: a well-formed ACK confirms the pending settings if any SETTINGS is outstanding, changes nothing if none
is, and queues nothing. -/
def Obligations.SettingsAckConfirmsPending : Prop :=
  ∀ (fr : DispatchedFrame) (y : System), y.env.Inv →
    ackFlag fr.hdr.flags = true → fr.hdr.len.toNat = 0 → fr.hdr.sid.toNat = 0 →
    ∃ y', settingsHandler fr y = .next (y', .accept) ∧ y'.block = y.block ∧
      (y.env.outstanding = 0 → y'.env = y.env) ∧
      (0 < y.env.outstanding →
        y'.env.confirmed = y.env.pending ∧ y'.env.outstanding + 1 = y.env.outstanding ∧
        y'.env.remote = y.env.remote ∧ y'.env.pending = y.env.pending ∧
        (y'.env.localHs = .idle ↔ y.env.outstanding = 1))

/-- R231: a frame of a type without a handler is discarded and accepted: the block returns to AWAIT_HDR with its
read armed and nothing queued, and the environment does not change. -/
def Obligations.UnknownTypeIsDiscarded : Prop :=
  ∀ (y : System) (f : RxFrame) (fr : DispatchedFrame), y.block.connState = .opened →
    y.block.rxPhase = .dispatching f → y.block.dispatched.getLast? = some fr →
    fr.hdr.type ∉ y.block.params.dispatchTypes →
    y.consume = .next
      { y with block := { y.block with
          cmdStatus := .ok, statuses := y.block.statuses ++ [.ok], rxPhase := .awaitHdr, rxArmed := true } }

/-- R232 with R237 and R238: a malformed SETTINGS frame tears the Connection down with HANDLER_FAIL, no error
frame is sent (R244), and the settings tables are discarded (R236). -/
def Obligations.MalformedSettingsTearDown : Prop :=
  ∀ (y : System) (f : RxFrame) (fr : DispatchedFrame), y.block.connState = .opened →
    y.block.rxPhase = .dispatching f → y.block.dispatched.getLast? = some fr →
    fr.hdr.type = 0x04#8 → 0x04#8 ∈ y.block.params.dispatchTypes →
    ((ackFlag fr.hdr.flags = false ∧ fr.hdr.len.toNat % 6 ≠ 0) ∨
      (ackFlag fr.hdr.flags = true ∧ fr.hdr.len.toNat ≠ 0) ∨ fr.hdr.sid.toNat ≠ 0) →
    ∃ y', y.consume = .next y' ∧ y'.block.connState = .closed ∧ y'.block.tdReason = .handlerFail ∧
      y'.block.wireOut = y.block.wireOut ∧ y'.block.txq = [] ∧ y'.block.closes = y.block.closes + 1 ∧
      y'.env = Env.atOpen y.env.freeCalls

/-- R246: `settings_send` issues the one TX_ENQUEUE of SETTINGS_SEND, a SETTINGS frame of 6 bytes a record; if it
returns OK the list becomes the pending settings and one more frame is outstanding, and otherwise the environment
does not change. A list below 2^24 bytes that finds room in the queue and a successful Alloc is sent; any other is
refused. -/
def Obligations.SettingsSendAwaitsAck : Prop :=
  ∀ (records : List (BitVec 16 × BitVec 32)) (y : System), y.block.connState = .opened →
    ∃ y' ok, y.settingsSend records = .next (y', ok) ∧
      exec (settingsSendCommand records) y.block = .next y'.block ∧ (ok = true ↔ y'.block.cmdStatus = .ok) ∧
      (6 * records.length < 2 ^ 24 → y.block.queueFull = false → y.block.allocAnswer = .ok → ok = true) ∧
      (y.block.queueFull = true ∨ y.block.allocAnswer = .fail → ok = false) ∧
      (2 ^ 24 ≤ 6 * records.length → ok = false ∧ y'.block.cmdStatus = .errTooLong) ∧
      (ok = false → y'.env = y.env ∧ y'.block.txq = y.block.txq) ∧
      (ok = true → ∃ e, y'.block.txq = y.block.txq ++ [e] ∧ e.hdr.type = 0x04#8 ∧ e.hdr.flags = 0x00#8 ∧
        e.hdr.sid = 0#31 ∧ e.hdr.len.toNat = 6 * records.length ∧ e.payload.bytes = recordBytes records ∧
        y'.env.outstanding = y.env.outstanding + 1 ∧ y'.env.localHs = .awaitingAck ∧
        y'.env.remote = y.env.remote ∧ y'.env.confirmed = y.env.confirmed ∧
        ∀ id, SettingsMap.get y'.env.pending id =
          (records.reverse.find? fun r => r.1 == id).map Prod.snd)

/-- R235: `LOCAL_HS` is AwaitingAck exactly while a local SETTINGS frame is outstanding, after every move of the
system. -/
def Obligations.HandshakeStateMatchesOutstanding : Prop :=
  ∀ y : System, y.env.Inv →
    (∀ y', y.step = .next y' → y'.env.Inv) ∧ (∀ y', y.consume = .next y' → y'.env.Inv) ∧
    (∀ records y' ok, y.settingsSend records = .next (y', ok) → y'.env.Inv) ∧
    ∀ line y', y.runLine line = some (.next y') → y'.env.Inv

/-- R290: of several blocks one steps at a time, and the others do not change. -/
def Obligations.BlocksStepIndependently : Prop :=
  ∀ (k : Nat) (blocks after : List State), stepOne k blocks = some after →
    after.length = blocks.length ∧ (∀ j, j ≠ k → after[j]? = blocks[j]?) ∧
    ∃ s t, blocks[k]? = some s ∧ after[k]? = some t ∧ step s = .next t
end

