-- ==== Sys2Proof/Laws/State.lean ====
section
/-! SUPPORT. What each named update of the state does to each field: one lemma per field per update, so that
no later proof unfolds a record update. -/

namespace Sys2Proof.Machine

variable (s : State)

@[simp] theorem State.setRxArmed_params (b : Bool) : (s.setRxArmed b).params = s.params := rfl
@[simp] theorem State.setRxArmed_connState (b : Bool) : (s.setRxArmed b).connState = s.connState := rfl
@[simp] theorem State.setRxArmed_tdReason (b : Bool) : (s.setRxArmed b).tdReason = s.tdReason := rfl
@[simp] theorem State.setRxArmed_cmdStatus (b : Bool) : (s.setRxArmed b).cmdStatus = s.cmdStatus := rfl
@[simp] theorem State.setRxArmed_rxPhase (b : Bool) : (s.setRxArmed b).rxPhase = s.rxPhase := rfl
@[simp] theorem State.setRxArmed_rxArmed (b : Bool) : (s.setRxArmed b).rxArmed = b := rfl
@[simp] theorem State.setRxArmed_txArmed (b : Bool) : (s.setRxArmed b).txArmed = s.txArmed := rfl
@[simp] theorem State.setRxArmed_rxHdrBuf (b : Bool) : (s.setRxArmed b).rxHdrBuf = s.rxHdrBuf := rfl
@[simp] theorem State.setRxArmed_rxHdrCnt (b : Bool) : (s.setRxArmed b).rxHdrCnt = s.rxHdrCnt := rfl
@[simp] theorem State.setRxArmed_txq (b : Bool) : (s.setRxArmed b).txq = s.txq := rfl
@[simp] theorem State.setRxArmed_decOut (b : Bool) : (s.setRxArmed b).decOut = s.decOut := rfl
@[simp] theorem State.setRxArmed_encOut (b : Bool) : (s.setRxArmed b).encOut = s.encOut := rfl
@[simp] theorem State.setRxArmed_wireOut (b : Bool) : (s.setRxArmed b).wireOut = s.wireOut := rfl
@[simp] theorem State.setRxArmed_dispatched (b : Bool) : (s.setRxArmed b).dispatched = s.dispatched := rfl
@[simp] theorem State.setRxArmed_closes (b : Bool) : (s.setRxArmed b).closes = s.closes := rfl
@[simp] theorem State.setRxArmed_statuses (b : Bool) : (s.setRxArmed b).statuses = s.statuses := rfl
@[simp] theorem State.setRxArmed_rxTaken (b : Bool) : (s.setRxArmed b).rxTaken = s.rxTaken := rfl
@[simp] theorem State.setRxArmed_port (b : Bool) : (s.setRxArmed b).port = s.port := rfl
@[simp] theorem State.setRxArmed_sourceAnswers (b : Bool) : (s.setRxArmed b).sourceAnswers = s.sourceAnswers := rfl
@[simp] theorem State.setRxArmed_sinkAnswers (b : Bool) : (s.setRxArmed b).sinkAnswers = s.sinkAnswers := rfl
@[simp] theorem State.setRxArmed_allocAnswers (b : Bool) : (s.setRxArmed b).allocAnswers = s.allocAnswers := rfl
@[simp] theorem State.setRxArmed_registerAnswers (b : Bool) : (s.setRxArmed b).registerAnswers = s.registerAnswers := rfl
@[simp] theorem State.setRxArmed_freeDraws (b : Bool) : (s.setRxArmed b).freeDraws = s.freeDraws := rfl

@[simp] theorem State.setTxArmed_params (b : Bool) : (s.setTxArmed b).params = s.params := rfl
@[simp] theorem State.setTxArmed_connState (b : Bool) : (s.setTxArmed b).connState = s.connState := rfl
@[simp] theorem State.setTxArmed_tdReason (b : Bool) : (s.setTxArmed b).tdReason = s.tdReason := rfl
@[simp] theorem State.setTxArmed_cmdStatus (b : Bool) : (s.setTxArmed b).cmdStatus = s.cmdStatus := rfl
@[simp] theorem State.setTxArmed_rxPhase (b : Bool) : (s.setTxArmed b).rxPhase = s.rxPhase := rfl
@[simp] theorem State.setTxArmed_rxArmed (b : Bool) : (s.setTxArmed b).rxArmed = s.rxArmed := rfl
@[simp] theorem State.setTxArmed_txArmed (b : Bool) : (s.setTxArmed b).txArmed = b := rfl
@[simp] theorem State.setTxArmed_rxHdrBuf (b : Bool) : (s.setTxArmed b).rxHdrBuf = s.rxHdrBuf := rfl
@[simp] theorem State.setTxArmed_rxHdrCnt (b : Bool) : (s.setTxArmed b).rxHdrCnt = s.rxHdrCnt := rfl
@[simp] theorem State.setTxArmed_txq (b : Bool) : (s.setTxArmed b).txq = s.txq := rfl
@[simp] theorem State.setTxArmed_decOut (b : Bool) : (s.setTxArmed b).decOut = s.decOut := rfl
@[simp] theorem State.setTxArmed_encOut (b : Bool) : (s.setTxArmed b).encOut = s.encOut := rfl
@[simp] theorem State.setTxArmed_wireOut (b : Bool) : (s.setTxArmed b).wireOut = s.wireOut := rfl
@[simp] theorem State.setTxArmed_dispatched (b : Bool) : (s.setTxArmed b).dispatched = s.dispatched := rfl
@[simp] theorem State.setTxArmed_closes (b : Bool) : (s.setTxArmed b).closes = s.closes := rfl
@[simp] theorem State.setTxArmed_statuses (b : Bool) : (s.setTxArmed b).statuses = s.statuses := rfl
@[simp] theorem State.setTxArmed_rxTaken (b : Bool) : (s.setTxArmed b).rxTaken = s.rxTaken := rfl
@[simp] theorem State.setTxArmed_port (b : Bool) : (s.setTxArmed b).port = s.port := rfl
@[simp] theorem State.setTxArmed_sourceAnswers (b : Bool) : (s.setTxArmed b).sourceAnswers = s.sourceAnswers := rfl
@[simp] theorem State.setTxArmed_sinkAnswers (b : Bool) : (s.setTxArmed b).sinkAnswers = s.sinkAnswers := rfl
@[simp] theorem State.setTxArmed_allocAnswers (b : Bool) : (s.setTxArmed b).allocAnswers = s.allocAnswers := rfl
@[simp] theorem State.setTxArmed_registerAnswers (b : Bool) : (s.setTxArmed b).registerAnswers = s.registerAnswers := rfl
@[simp] theorem State.setTxArmed_freeDraws (b : Bool) : (s.setTxArmed b).freeDraws = s.freeDraws := rfl

@[simp] theorem State.returnStatus_params (c : CmdStatus) : (s.returnStatus c).params = s.params := rfl
@[simp] theorem State.returnStatus_connState (c : CmdStatus) : (s.returnStatus c).connState = s.connState := rfl
@[simp] theorem State.returnStatus_tdReason (c : CmdStatus) : (s.returnStatus c).tdReason = s.tdReason := rfl
@[simp] theorem State.returnStatus_cmdStatus (c : CmdStatus) : (s.returnStatus c).cmdStatus = c := rfl
@[simp] theorem State.returnStatus_rxPhase (c : CmdStatus) : (s.returnStatus c).rxPhase = s.rxPhase := rfl
@[simp] theorem State.returnStatus_rxArmed (c : CmdStatus) : (s.returnStatus c).rxArmed = s.rxArmed := rfl
@[simp] theorem State.returnStatus_txArmed (c : CmdStatus) : (s.returnStatus c).txArmed = s.txArmed := rfl
@[simp] theorem State.returnStatus_rxHdrBuf (c : CmdStatus) : (s.returnStatus c).rxHdrBuf = s.rxHdrBuf := rfl
@[simp] theorem State.returnStatus_rxHdrCnt (c : CmdStatus) : (s.returnStatus c).rxHdrCnt = s.rxHdrCnt := rfl
@[simp] theorem State.returnStatus_txq (c : CmdStatus) : (s.returnStatus c).txq = s.txq := rfl
@[simp] theorem State.returnStatus_decOut (c : CmdStatus) : (s.returnStatus c).decOut = s.decOut := rfl
@[simp] theorem State.returnStatus_encOut (c : CmdStatus) : (s.returnStatus c).encOut = s.encOut := rfl
@[simp] theorem State.returnStatus_wireOut (c : CmdStatus) : (s.returnStatus c).wireOut = s.wireOut := rfl
@[simp] theorem State.returnStatus_dispatched (c : CmdStatus) : (s.returnStatus c).dispatched = s.dispatched := rfl
@[simp] theorem State.returnStatus_closes (c : CmdStatus) : (s.returnStatus c).closes = s.closes := rfl
@[simp] theorem State.returnStatus_statuses (c : CmdStatus) : (s.returnStatus c).statuses = s.statuses ++ [c] := rfl
@[simp] theorem State.returnStatus_rxTaken (c : CmdStatus) : (s.returnStatus c).rxTaken = s.rxTaken := rfl
@[simp] theorem State.returnStatus_port (c : CmdStatus) : (s.returnStatus c).port = s.port := rfl
@[simp] theorem State.returnStatus_sourceAnswers (c : CmdStatus) : (s.returnStatus c).sourceAnswers = s.sourceAnswers := rfl
@[simp] theorem State.returnStatus_sinkAnswers (c : CmdStatus) : (s.returnStatus c).sinkAnswers = s.sinkAnswers := rfl
@[simp] theorem State.returnStatus_allocAnswers (c : CmdStatus) : (s.returnStatus c).allocAnswers = s.allocAnswers := rfl
@[simp] theorem State.returnStatus_registerAnswers (c : CmdStatus) : (s.returnStatus c).registerAnswers = s.registerAnswers := rfl
@[simp] theorem State.returnStatus_freeDraws (c : CmdStatus) : (s.returnStatus c).freeDraws = s.freeDraws := rfl

@[simp] theorem State.setRxPhase_params (p : RxPhase) : (s.setRxPhase p).params = s.params := rfl
@[simp] theorem State.setRxPhase_connState (p : RxPhase) : (s.setRxPhase p).connState = s.connState := rfl
@[simp] theorem State.setRxPhase_tdReason (p : RxPhase) : (s.setRxPhase p).tdReason = s.tdReason := rfl
@[simp] theorem State.setRxPhase_cmdStatus (p : RxPhase) : (s.setRxPhase p).cmdStatus = s.cmdStatus := rfl
@[simp] theorem State.setRxPhase_rxPhase (p : RxPhase) : (s.setRxPhase p).rxPhase = p := rfl
@[simp] theorem State.setRxPhase_rxArmed (p : RxPhase) : (s.setRxPhase p).rxArmed = s.rxArmed := rfl
@[simp] theorem State.setRxPhase_txArmed (p : RxPhase) : (s.setRxPhase p).txArmed = s.txArmed := rfl
@[simp] theorem State.setRxPhase_rxHdrBuf (p : RxPhase) : (s.setRxPhase p).rxHdrBuf = s.rxHdrBuf := rfl
@[simp] theorem State.setRxPhase_rxHdrCnt (p : RxPhase) : (s.setRxPhase p).rxHdrCnt = s.rxHdrCnt := rfl
@[simp] theorem State.setRxPhase_txq (p : RxPhase) : (s.setRxPhase p).txq = s.txq := rfl
@[simp] theorem State.setRxPhase_decOut (p : RxPhase) : (s.setRxPhase p).decOut = s.decOut := rfl
@[simp] theorem State.setRxPhase_encOut (p : RxPhase) : (s.setRxPhase p).encOut = s.encOut := rfl
@[simp] theorem State.setRxPhase_wireOut (p : RxPhase) : (s.setRxPhase p).wireOut = s.wireOut := rfl
@[simp] theorem State.setRxPhase_dispatched (p : RxPhase) : (s.setRxPhase p).dispatched = s.dispatched := rfl
@[simp] theorem State.setRxPhase_closes (p : RxPhase) : (s.setRxPhase p).closes = s.closes := rfl
@[simp] theorem State.setRxPhase_statuses (p : RxPhase) : (s.setRxPhase p).statuses = s.statuses := rfl
@[simp] theorem State.setRxPhase_rxTaken (p : RxPhase) : (s.setRxPhase p).rxTaken = s.rxTaken := rfl
@[simp] theorem State.setRxPhase_port (p : RxPhase) : (s.setRxPhase p).port = s.port := rfl
@[simp] theorem State.setRxPhase_sourceAnswers (p : RxPhase) : (s.setRxPhase p).sourceAnswers = s.sourceAnswers := rfl
@[simp] theorem State.setRxPhase_sinkAnswers (p : RxPhase) : (s.setRxPhase p).sinkAnswers = s.sinkAnswers := rfl
@[simp] theorem State.setRxPhase_allocAnswers (p : RxPhase) : (s.setRxPhase p).allocAnswers = s.allocAnswers := rfl
@[simp] theorem State.setRxPhase_registerAnswers (p : RxPhase) : (s.setRxPhase p).registerAnswers = s.registerAnswers := rfl
@[simp] theorem State.setRxPhase_freeDraws (p : RxPhase) : (s.setRxPhase p).freeDraws = s.freeDraws := rfl

@[simp] theorem State.setRxHdr_params (b : Buffer) (n : BitVec 4) : (s.setRxHdr b n).params = s.params := rfl
@[simp] theorem State.setRxHdr_connState (b : Buffer) (n : BitVec 4) : (s.setRxHdr b n).connState = s.connState := rfl
@[simp] theorem State.setRxHdr_tdReason (b : Buffer) (n : BitVec 4) : (s.setRxHdr b n).tdReason = s.tdReason := rfl
@[simp] theorem State.setRxHdr_cmdStatus (b : Buffer) (n : BitVec 4) : (s.setRxHdr b n).cmdStatus = s.cmdStatus := rfl
@[simp] theorem State.setRxHdr_rxPhase (b : Buffer) (n : BitVec 4) : (s.setRxHdr b n).rxPhase = s.rxPhase := rfl
@[simp] theorem State.setRxHdr_rxArmed (b : Buffer) (n : BitVec 4) : (s.setRxHdr b n).rxArmed = s.rxArmed := rfl
@[simp] theorem State.setRxHdr_txArmed (b : Buffer) (n : BitVec 4) : (s.setRxHdr b n).txArmed = s.txArmed := rfl
@[simp] theorem State.setRxHdr_rxHdrBuf (b : Buffer) (n : BitVec 4) : (s.setRxHdr b n).rxHdrBuf = b := rfl
@[simp] theorem State.setRxHdr_rxHdrCnt (b : Buffer) (n : BitVec 4) : (s.setRxHdr b n).rxHdrCnt = n := rfl
@[simp] theorem State.setRxHdr_txq (b : Buffer) (n : BitVec 4) : (s.setRxHdr b n).txq = s.txq := rfl
@[simp] theorem State.setRxHdr_decOut (b : Buffer) (n : BitVec 4) : (s.setRxHdr b n).decOut = s.decOut := rfl
@[simp] theorem State.setRxHdr_encOut (b : Buffer) (n : BitVec 4) : (s.setRxHdr b n).encOut = s.encOut := rfl
@[simp] theorem State.setRxHdr_wireOut (b : Buffer) (n : BitVec 4) : (s.setRxHdr b n).wireOut = s.wireOut := rfl
@[simp] theorem State.setRxHdr_dispatched (b : Buffer) (n : BitVec 4) : (s.setRxHdr b n).dispatched = s.dispatched := rfl
@[simp] theorem State.setRxHdr_closes (b : Buffer) (n : BitVec 4) : (s.setRxHdr b n).closes = s.closes := rfl
@[simp] theorem State.setRxHdr_statuses (b : Buffer) (n : BitVec 4) : (s.setRxHdr b n).statuses = s.statuses := rfl
@[simp] theorem State.setRxHdr_rxTaken (b : Buffer) (n : BitVec 4) : (s.setRxHdr b n).rxTaken = s.rxTaken := rfl
@[simp] theorem State.setRxHdr_port (b : Buffer) (n : BitVec 4) : (s.setRxHdr b n).port = s.port := rfl
@[simp] theorem State.setRxHdr_sourceAnswers (b : Buffer) (n : BitVec 4) : (s.setRxHdr b n).sourceAnswers = s.sourceAnswers := rfl
@[simp] theorem State.setRxHdr_sinkAnswers (b : Buffer) (n : BitVec 4) : (s.setRxHdr b n).sinkAnswers = s.sinkAnswers := rfl
@[simp] theorem State.setRxHdr_allocAnswers (b : Buffer) (n : BitVec 4) : (s.setRxHdr b n).allocAnswers = s.allocAnswers := rfl
@[simp] theorem State.setRxHdr_registerAnswers (b : Buffer) (n : BitVec 4) : (s.setRxHdr b n).registerAnswers = s.registerAnswers := rfl
@[simp] theorem State.setRxHdr_freeDraws (b : Buffer) (n : BitVec 4) : (s.setRxHdr b n).freeDraws = s.freeDraws := rfl

@[simp] theorem State.setTxq_params (q : List TxEntry) : (s.setTxq q).params = s.params := rfl
@[simp] theorem State.setTxq_connState (q : List TxEntry) : (s.setTxq q).connState = s.connState := rfl
@[simp] theorem State.setTxq_tdReason (q : List TxEntry) : (s.setTxq q).tdReason = s.tdReason := rfl
@[simp] theorem State.setTxq_cmdStatus (q : List TxEntry) : (s.setTxq q).cmdStatus = s.cmdStatus := rfl
@[simp] theorem State.setTxq_rxPhase (q : List TxEntry) : (s.setTxq q).rxPhase = s.rxPhase := rfl
@[simp] theorem State.setTxq_rxArmed (q : List TxEntry) : (s.setTxq q).rxArmed = s.rxArmed := rfl
@[simp] theorem State.setTxq_txArmed (q : List TxEntry) : (s.setTxq q).txArmed = s.txArmed := rfl
@[simp] theorem State.setTxq_rxHdrBuf (q : List TxEntry) : (s.setTxq q).rxHdrBuf = s.rxHdrBuf := rfl
@[simp] theorem State.setTxq_rxHdrCnt (q : List TxEntry) : (s.setTxq q).rxHdrCnt = s.rxHdrCnt := rfl
@[simp] theorem State.setTxq_txq (q : List TxEntry) : (s.setTxq q).txq = q := rfl
@[simp] theorem State.setTxq_decOut (q : List TxEntry) : (s.setTxq q).decOut = s.decOut := rfl
@[simp] theorem State.setTxq_encOut (q : List TxEntry) : (s.setTxq q).encOut = s.encOut := rfl
@[simp] theorem State.setTxq_wireOut (q : List TxEntry) : (s.setTxq q).wireOut = s.wireOut := rfl
@[simp] theorem State.setTxq_dispatched (q : List TxEntry) : (s.setTxq q).dispatched = s.dispatched := rfl
@[simp] theorem State.setTxq_closes (q : List TxEntry) : (s.setTxq q).closes = s.closes := rfl
@[simp] theorem State.setTxq_statuses (q : List TxEntry) : (s.setTxq q).statuses = s.statuses := rfl
@[simp] theorem State.setTxq_rxTaken (q : List TxEntry) : (s.setTxq q).rxTaken = s.rxTaken := rfl
@[simp] theorem State.setTxq_port (q : List TxEntry) : (s.setTxq q).port = s.port := rfl
@[simp] theorem State.setTxq_sourceAnswers (q : List TxEntry) : (s.setTxq q).sourceAnswers = s.sourceAnswers := rfl
@[simp] theorem State.setTxq_sinkAnswers (q : List TxEntry) : (s.setTxq q).sinkAnswers = s.sinkAnswers := rfl
@[simp] theorem State.setTxq_allocAnswers (q : List TxEntry) : (s.setTxq q).allocAnswers = s.allocAnswers := rfl
@[simp] theorem State.setTxq_registerAnswers (q : List TxEntry) : (s.setTxq q).registerAnswers = s.registerAnswers := rfl
@[simp] theorem State.setTxq_freeDraws (q : List TxEntry) : (s.setTxq q).freeDraws = s.freeDraws := rfl

@[simp] theorem State.setHead_params (e : TxEntry) : (s.setHead e).params = s.params := rfl
@[simp] theorem State.setHead_connState (e : TxEntry) : (s.setHead e).connState = s.connState := rfl
@[simp] theorem State.setHead_tdReason (e : TxEntry) : (s.setHead e).tdReason = s.tdReason := rfl
@[simp] theorem State.setHead_cmdStatus (e : TxEntry) : (s.setHead e).cmdStatus = s.cmdStatus := rfl
@[simp] theorem State.setHead_rxPhase (e : TxEntry) : (s.setHead e).rxPhase = s.rxPhase := rfl
@[simp] theorem State.setHead_rxArmed (e : TxEntry) : (s.setHead e).rxArmed = s.rxArmed := rfl
@[simp] theorem State.setHead_txArmed (e : TxEntry) : (s.setHead e).txArmed = s.txArmed := rfl
@[simp] theorem State.setHead_rxHdrBuf (e : TxEntry) : (s.setHead e).rxHdrBuf = s.rxHdrBuf := rfl
@[simp] theorem State.setHead_rxHdrCnt (e : TxEntry) : (s.setHead e).rxHdrCnt = s.rxHdrCnt := rfl
@[simp] theorem State.setHead_txq (e : TxEntry) : (s.setHead e).txq = e :: s.txq.tail := rfl
@[simp] theorem State.setHead_decOut (e : TxEntry) : (s.setHead e).decOut = s.decOut := rfl
@[simp] theorem State.setHead_encOut (e : TxEntry) : (s.setHead e).encOut = s.encOut := rfl
@[simp] theorem State.setHead_wireOut (e : TxEntry) : (s.setHead e).wireOut = s.wireOut := rfl
@[simp] theorem State.setHead_dispatched (e : TxEntry) : (s.setHead e).dispatched = s.dispatched := rfl
@[simp] theorem State.setHead_closes (e : TxEntry) : (s.setHead e).closes = s.closes := rfl
@[simp] theorem State.setHead_statuses (e : TxEntry) : (s.setHead e).statuses = s.statuses := rfl
@[simp] theorem State.setHead_rxTaken (e : TxEntry) : (s.setHead e).rxTaken = s.rxTaken := rfl
@[simp] theorem State.setHead_port (e : TxEntry) : (s.setHead e).port = s.port := rfl
@[simp] theorem State.setHead_sourceAnswers (e : TxEntry) : (s.setHead e).sourceAnswers = s.sourceAnswers := rfl
@[simp] theorem State.setHead_sinkAnswers (e : TxEntry) : (s.setHead e).sinkAnswers = s.sinkAnswers := rfl
@[simp] theorem State.setHead_allocAnswers (e : TxEntry) : (s.setHead e).allocAnswers = s.allocAnswers := rfl
@[simp] theorem State.setHead_registerAnswers (e : TxEntry) : (s.setHead e).registerAnswers = s.registerAnswers := rfl
@[simp] theorem State.setHead_freeDraws (e : TxEntry) : (s.setHead e).freeDraws = s.freeDraws := rfl

@[simp] theorem State.appendEntry_params (e : TxEntry) : (s.appendEntry e).params = s.params := rfl
@[simp] theorem State.appendEntry_connState (e : TxEntry) : (s.appendEntry e).connState = s.connState := rfl
@[simp] theorem State.appendEntry_tdReason (e : TxEntry) : (s.appendEntry e).tdReason = s.tdReason := rfl
@[simp] theorem State.appendEntry_cmdStatus (e : TxEntry) : (s.appendEntry e).cmdStatus = s.cmdStatus := rfl
@[simp] theorem State.appendEntry_rxPhase (e : TxEntry) : (s.appendEntry e).rxPhase = s.rxPhase := rfl
@[simp] theorem State.appendEntry_rxArmed (e : TxEntry) : (s.appendEntry e).rxArmed = s.rxArmed := rfl
@[simp] theorem State.appendEntry_txArmed (e : TxEntry) : (s.appendEntry e).txArmed = (s.txArmed || s.txq.isEmpty) := rfl
@[simp] theorem State.appendEntry_rxHdrBuf (e : TxEntry) : (s.appendEntry e).rxHdrBuf = s.rxHdrBuf := rfl
@[simp] theorem State.appendEntry_rxHdrCnt (e : TxEntry) : (s.appendEntry e).rxHdrCnt = s.rxHdrCnt := rfl
@[simp] theorem State.appendEntry_txq (e : TxEntry) : (s.appendEntry e).txq = s.txq ++ [e] := rfl
@[simp] theorem State.appendEntry_decOut (e : TxEntry) : (s.appendEntry e).decOut = s.decOut := rfl
@[simp] theorem State.appendEntry_encOut (e : TxEntry) : (s.appendEntry e).encOut = s.encOut := rfl
@[simp] theorem State.appendEntry_wireOut (e : TxEntry) : (s.appendEntry e).wireOut = s.wireOut := rfl
@[simp] theorem State.appendEntry_dispatched (e : TxEntry) : (s.appendEntry e).dispatched = s.dispatched := rfl
@[simp] theorem State.appendEntry_closes (e : TxEntry) : (s.appendEntry e).closes = s.closes := rfl
@[simp] theorem State.appendEntry_statuses (e : TxEntry) : (s.appendEntry e).statuses = s.statuses := rfl
@[simp] theorem State.appendEntry_rxTaken (e : TxEntry) : (s.appendEntry e).rxTaken = s.rxTaken := rfl
@[simp] theorem State.appendEntry_port (e : TxEntry) : (s.appendEntry e).port = s.port := rfl
@[simp] theorem State.appendEntry_sourceAnswers (e : TxEntry) : (s.appendEntry e).sourceAnswers = s.sourceAnswers := rfl
@[simp] theorem State.appendEntry_sinkAnswers (e : TxEntry) : (s.appendEntry e).sinkAnswers = s.sinkAnswers := rfl
@[simp] theorem State.appendEntry_allocAnswers (e : TxEntry) : (s.appendEntry e).allocAnswers = s.allocAnswers := rfl
@[simp] theorem State.appendEntry_registerAnswers (e : TxEntry) : (s.appendEntry e).registerAnswers = s.registerAnswers := rfl
@[simp] theorem State.appendEntry_freeDraws (e : TxEntry) : (s.appendEntry e).freeDraws = s.freeDraws := rfl

@[simp] theorem State.setDecOut_params (h : Header) : (s.setDecOut h).params = s.params := rfl
@[simp] theorem State.setDecOut_connState (h : Header) : (s.setDecOut h).connState = s.connState := rfl
@[simp] theorem State.setDecOut_tdReason (h : Header) : (s.setDecOut h).tdReason = s.tdReason := rfl
@[simp] theorem State.setDecOut_cmdStatus (h : Header) : (s.setDecOut h).cmdStatus = s.cmdStatus := rfl
@[simp] theorem State.setDecOut_rxPhase (h : Header) : (s.setDecOut h).rxPhase = s.rxPhase := rfl
@[simp] theorem State.setDecOut_rxArmed (h : Header) : (s.setDecOut h).rxArmed = s.rxArmed := rfl
@[simp] theorem State.setDecOut_txArmed (h : Header) : (s.setDecOut h).txArmed = s.txArmed := rfl
@[simp] theorem State.setDecOut_rxHdrBuf (h : Header) : (s.setDecOut h).rxHdrBuf = s.rxHdrBuf := rfl
@[simp] theorem State.setDecOut_rxHdrCnt (h : Header) : (s.setDecOut h).rxHdrCnt = s.rxHdrCnt := rfl
@[simp] theorem State.setDecOut_txq (h : Header) : (s.setDecOut h).txq = s.txq := rfl
@[simp] theorem State.setDecOut_decOut (h : Header) : (s.setDecOut h).decOut = some h := rfl
@[simp] theorem State.setDecOut_encOut (h : Header) : (s.setDecOut h).encOut = s.encOut := rfl
@[simp] theorem State.setDecOut_wireOut (h : Header) : (s.setDecOut h).wireOut = s.wireOut := rfl
@[simp] theorem State.setDecOut_dispatched (h : Header) : (s.setDecOut h).dispatched = s.dispatched := rfl
@[simp] theorem State.setDecOut_closes (h : Header) : (s.setDecOut h).closes = s.closes := rfl
@[simp] theorem State.setDecOut_statuses (h : Header) : (s.setDecOut h).statuses = s.statuses := rfl
@[simp] theorem State.setDecOut_rxTaken (h : Header) : (s.setDecOut h).rxTaken = s.rxTaken := rfl
@[simp] theorem State.setDecOut_port (h : Header) : (s.setDecOut h).port = s.port := rfl
@[simp] theorem State.setDecOut_sourceAnswers (h : Header) : (s.setDecOut h).sourceAnswers = s.sourceAnswers := rfl
@[simp] theorem State.setDecOut_sinkAnswers (h : Header) : (s.setDecOut h).sinkAnswers = s.sinkAnswers := rfl
@[simp] theorem State.setDecOut_allocAnswers (h : Header) : (s.setDecOut h).allocAnswers = s.allocAnswers := rfl
@[simp] theorem State.setDecOut_registerAnswers (h : Header) : (s.setDecOut h).registerAnswers = s.registerAnswers := rfl
@[simp] theorem State.setDecOut_freeDraws (h : Header) : (s.setDecOut h).freeDraws = s.freeDraws := rfl

@[simp] theorem State.setEncOut_params (h : HeaderBytes) : (s.setEncOut h).params = s.params := rfl
@[simp] theorem State.setEncOut_connState (h : HeaderBytes) : (s.setEncOut h).connState = s.connState := rfl
@[simp] theorem State.setEncOut_tdReason (h : HeaderBytes) : (s.setEncOut h).tdReason = s.tdReason := rfl
@[simp] theorem State.setEncOut_cmdStatus (h : HeaderBytes) : (s.setEncOut h).cmdStatus = s.cmdStatus := rfl
@[simp] theorem State.setEncOut_rxPhase (h : HeaderBytes) : (s.setEncOut h).rxPhase = s.rxPhase := rfl
@[simp] theorem State.setEncOut_rxArmed (h : HeaderBytes) : (s.setEncOut h).rxArmed = s.rxArmed := rfl
@[simp] theorem State.setEncOut_txArmed (h : HeaderBytes) : (s.setEncOut h).txArmed = s.txArmed := rfl
@[simp] theorem State.setEncOut_rxHdrBuf (h : HeaderBytes) : (s.setEncOut h).rxHdrBuf = s.rxHdrBuf := rfl
@[simp] theorem State.setEncOut_rxHdrCnt (h : HeaderBytes) : (s.setEncOut h).rxHdrCnt = s.rxHdrCnt := rfl
@[simp] theorem State.setEncOut_txq (h : HeaderBytes) : (s.setEncOut h).txq = s.txq := rfl
@[simp] theorem State.setEncOut_decOut (h : HeaderBytes) : (s.setEncOut h).decOut = s.decOut := rfl
@[simp] theorem State.setEncOut_encOut (h : HeaderBytes) : (s.setEncOut h).encOut = some h := rfl
@[simp] theorem State.setEncOut_wireOut (h : HeaderBytes) : (s.setEncOut h).wireOut = s.wireOut := rfl
@[simp] theorem State.setEncOut_dispatched (h : HeaderBytes) : (s.setEncOut h).dispatched = s.dispatched := rfl
@[simp] theorem State.setEncOut_closes (h : HeaderBytes) : (s.setEncOut h).closes = s.closes := rfl
@[simp] theorem State.setEncOut_statuses (h : HeaderBytes) : (s.setEncOut h).statuses = s.statuses := rfl
@[simp] theorem State.setEncOut_rxTaken (h : HeaderBytes) : (s.setEncOut h).rxTaken = s.rxTaken := rfl
@[simp] theorem State.setEncOut_port (h : HeaderBytes) : (s.setEncOut h).port = s.port := rfl
@[simp] theorem State.setEncOut_sourceAnswers (h : HeaderBytes) : (s.setEncOut h).sourceAnswers = s.sourceAnswers := rfl
@[simp] theorem State.setEncOut_sinkAnswers (h : HeaderBytes) : (s.setEncOut h).sinkAnswers = s.sinkAnswers := rfl
@[simp] theorem State.setEncOut_allocAnswers (h : HeaderBytes) : (s.setEncOut h).allocAnswers = s.allocAnswers := rfl
@[simp] theorem State.setEncOut_registerAnswers (h : HeaderBytes) : (s.setEncOut h).registerAnswers = s.registerAnswers := rfl
@[simp] theorem State.setEncOut_freeDraws (h : HeaderBytes) : (s.setEncOut h).freeDraws = s.freeDraws := rfl

@[simp] theorem State.emitDispatch_params (d : DispatchedFrame) : (s.emitDispatch d).params = s.params := rfl
@[simp] theorem State.emitDispatch_connState (d : DispatchedFrame) : (s.emitDispatch d).connState = s.connState := rfl
@[simp] theorem State.emitDispatch_tdReason (d : DispatchedFrame) : (s.emitDispatch d).tdReason = s.tdReason := rfl
@[simp] theorem State.emitDispatch_cmdStatus (d : DispatchedFrame) : (s.emitDispatch d).cmdStatus = s.cmdStatus := rfl
@[simp] theorem State.emitDispatch_rxPhase (d : DispatchedFrame) : (s.emitDispatch d).rxPhase = s.rxPhase := rfl
@[simp] theorem State.emitDispatch_rxArmed (d : DispatchedFrame) : (s.emitDispatch d).rxArmed = s.rxArmed := rfl
@[simp] theorem State.emitDispatch_txArmed (d : DispatchedFrame) : (s.emitDispatch d).txArmed = s.txArmed := rfl
@[simp] theorem State.emitDispatch_rxHdrBuf (d : DispatchedFrame) : (s.emitDispatch d).rxHdrBuf = s.rxHdrBuf := rfl
@[simp] theorem State.emitDispatch_rxHdrCnt (d : DispatchedFrame) : (s.emitDispatch d).rxHdrCnt = s.rxHdrCnt := rfl
@[simp] theorem State.emitDispatch_txq (d : DispatchedFrame) : (s.emitDispatch d).txq = s.txq := rfl
@[simp] theorem State.emitDispatch_decOut (d : DispatchedFrame) : (s.emitDispatch d).decOut = s.decOut := rfl
@[simp] theorem State.emitDispatch_encOut (d : DispatchedFrame) : (s.emitDispatch d).encOut = s.encOut := rfl
@[simp] theorem State.emitDispatch_wireOut (d : DispatchedFrame) : (s.emitDispatch d).wireOut = s.wireOut := rfl
@[simp] theorem State.emitDispatch_dispatched (d : DispatchedFrame) : (s.emitDispatch d).dispatched = s.dispatched ++ [d] := rfl
@[simp] theorem State.emitDispatch_closes (d : DispatchedFrame) : (s.emitDispatch d).closes = s.closes := rfl
@[simp] theorem State.emitDispatch_statuses (d : DispatchedFrame) : (s.emitDispatch d).statuses = s.statuses := rfl
@[simp] theorem State.emitDispatch_rxTaken (d : DispatchedFrame) : (s.emitDispatch d).rxTaken = s.rxTaken := rfl
@[simp] theorem State.emitDispatch_port (d : DispatchedFrame) : (s.emitDispatch d).port = s.port := rfl
@[simp] theorem State.emitDispatch_sourceAnswers (d : DispatchedFrame) : (s.emitDispatch d).sourceAnswers = s.sourceAnswers := rfl
@[simp] theorem State.emitDispatch_sinkAnswers (d : DispatchedFrame) : (s.emitDispatch d).sinkAnswers = s.sinkAnswers := rfl
@[simp] theorem State.emitDispatch_allocAnswers (d : DispatchedFrame) : (s.emitDispatch d).allocAnswers = s.allocAnswers := rfl
@[simp] theorem State.emitDispatch_registerAnswers (d : DispatchedFrame) : (s.emitDispatch d).registerAnswers = s.registerAnswers := rfl
@[simp] theorem State.emitDispatch_freeDraws (d : DispatchedFrame) : (s.emitDispatch d).freeDraws = s.freeDraws := rfl

@[simp] theorem State.putWire_params (bs : List Byte) : (s.putWire bs).params = s.params := rfl
@[simp] theorem State.putWire_connState (bs : List Byte) : (s.putWire bs).connState = s.connState := rfl
@[simp] theorem State.putWire_tdReason (bs : List Byte) : (s.putWire bs).tdReason = s.tdReason := rfl
@[simp] theorem State.putWire_cmdStatus (bs : List Byte) : (s.putWire bs).cmdStatus = s.cmdStatus := rfl
@[simp] theorem State.putWire_rxPhase (bs : List Byte) : (s.putWire bs).rxPhase = s.rxPhase := rfl
@[simp] theorem State.putWire_rxArmed (bs : List Byte) : (s.putWire bs).rxArmed = s.rxArmed := rfl
@[simp] theorem State.putWire_txArmed (bs : List Byte) : (s.putWire bs).txArmed = s.txArmed := rfl
@[simp] theorem State.putWire_rxHdrBuf (bs : List Byte) : (s.putWire bs).rxHdrBuf = s.rxHdrBuf := rfl
@[simp] theorem State.putWire_rxHdrCnt (bs : List Byte) : (s.putWire bs).rxHdrCnt = s.rxHdrCnt := rfl
@[simp] theorem State.putWire_txq (bs : List Byte) : (s.putWire bs).txq = s.txq := rfl
@[simp] theorem State.putWire_decOut (bs : List Byte) : (s.putWire bs).decOut = s.decOut := rfl
@[simp] theorem State.putWire_encOut (bs : List Byte) : (s.putWire bs).encOut = s.encOut := rfl
@[simp] theorem State.putWire_wireOut (bs : List Byte) : (s.putWire bs).wireOut = s.wireOut ++ bs := rfl
@[simp] theorem State.putWire_dispatched (bs : List Byte) : (s.putWire bs).dispatched = s.dispatched := rfl
@[simp] theorem State.putWire_closes (bs : List Byte) : (s.putWire bs).closes = s.closes := rfl
@[simp] theorem State.putWire_statuses (bs : List Byte) : (s.putWire bs).statuses = s.statuses := rfl
@[simp] theorem State.putWire_rxTaken (bs : List Byte) : (s.putWire bs).rxTaken = s.rxTaken := rfl
@[simp] theorem State.putWire_port (bs : List Byte) : (s.putWire bs).port = s.port := rfl
@[simp] theorem State.putWire_sourceAnswers (bs : List Byte) : (s.putWire bs).sourceAnswers = s.sourceAnswers := rfl
@[simp] theorem State.putWire_sinkAnswers (bs : List Byte) : (s.putWire bs).sinkAnswers = s.sinkAnswers := rfl
@[simp] theorem State.putWire_allocAnswers (bs : List Byte) : (s.putWire bs).allocAnswers = s.allocAnswers := rfl
@[simp] theorem State.putWire_registerAnswers (bs : List Byte) : (s.putWire bs).registerAnswers = s.registerAnswers := rfl
@[simp] theorem State.putWire_freeDraws (bs : List Byte) : (s.putWire bs).freeDraws = s.freeDraws := rfl

@[simp] theorem State.setPort_params (bs : List Byte) : (s.setPort bs).params = s.params := rfl
@[simp] theorem State.setPort_connState (bs : List Byte) : (s.setPort bs).connState = s.connState := rfl
@[simp] theorem State.setPort_tdReason (bs : List Byte) : (s.setPort bs).tdReason = s.tdReason := rfl
@[simp] theorem State.setPort_cmdStatus (bs : List Byte) : (s.setPort bs).cmdStatus = s.cmdStatus := rfl
@[simp] theorem State.setPort_rxPhase (bs : List Byte) : (s.setPort bs).rxPhase = s.rxPhase := rfl
@[simp] theorem State.setPort_rxArmed (bs : List Byte) : (s.setPort bs).rxArmed = s.rxArmed := rfl
@[simp] theorem State.setPort_txArmed (bs : List Byte) : (s.setPort bs).txArmed = s.txArmed := rfl
@[simp] theorem State.setPort_rxHdrBuf (bs : List Byte) : (s.setPort bs).rxHdrBuf = s.rxHdrBuf := rfl
@[simp] theorem State.setPort_rxHdrCnt (bs : List Byte) : (s.setPort bs).rxHdrCnt = s.rxHdrCnt := rfl
@[simp] theorem State.setPort_txq (bs : List Byte) : (s.setPort bs).txq = s.txq := rfl
@[simp] theorem State.setPort_decOut (bs : List Byte) : (s.setPort bs).decOut = s.decOut := rfl
@[simp] theorem State.setPort_encOut (bs : List Byte) : (s.setPort bs).encOut = s.encOut := rfl
@[simp] theorem State.setPort_wireOut (bs : List Byte) : (s.setPort bs).wireOut = s.wireOut := rfl
@[simp] theorem State.setPort_dispatched (bs : List Byte) : (s.setPort bs).dispatched = s.dispatched := rfl
@[simp] theorem State.setPort_closes (bs : List Byte) : (s.setPort bs).closes = s.closes := rfl
@[simp] theorem State.setPort_statuses (bs : List Byte) : (s.setPort bs).statuses = s.statuses := rfl
@[simp] theorem State.setPort_rxTaken (bs : List Byte) : (s.setPort bs).rxTaken = s.rxTaken := rfl
@[simp] theorem State.setPort_port (bs : List Byte) : (s.setPort bs).port = bs := rfl
@[simp] theorem State.setPort_sourceAnswers (bs : List Byte) : (s.setPort bs).sourceAnswers = s.sourceAnswers := rfl
@[simp] theorem State.setPort_sinkAnswers (bs : List Byte) : (s.setPort bs).sinkAnswers = s.sinkAnswers := rfl
@[simp] theorem State.setPort_allocAnswers (bs : List Byte) : (s.setPort bs).allocAnswers = s.allocAnswers := rfl
@[simp] theorem State.setPort_registerAnswers (bs : List Byte) : (s.setPort bs).registerAnswers = s.registerAnswers := rfl
@[simp] theorem State.setPort_freeDraws (bs : List Byte) : (s.setPort bs).freeDraws = s.freeDraws := rfl

@[simp] theorem State.afterRead_params : s.afterRead.params = s.params := rfl
@[simp] theorem State.afterRead_connState : s.afterRead.connState = s.connState := rfl
@[simp] theorem State.afterRead_tdReason : s.afterRead.tdReason = s.tdReason := rfl
@[simp] theorem State.afterRead_cmdStatus : s.afterRead.cmdStatus = s.cmdStatus := rfl
@[simp] theorem State.afterRead_rxPhase : s.afterRead.rxPhase = s.rxPhase := rfl
@[simp] theorem State.afterRead_rxArmed : s.afterRead.rxArmed = s.rxArmed := rfl
@[simp] theorem State.afterRead_txArmed : s.afterRead.txArmed = s.txArmed := rfl
@[simp] theorem State.afterRead_rxHdrBuf : s.afterRead.rxHdrBuf = s.rxHdrBuf := rfl
@[simp] theorem State.afterRead_rxHdrCnt : s.afterRead.rxHdrCnt = s.rxHdrCnt := rfl
@[simp] theorem State.afterRead_txq : s.afterRead.txq = s.txq := rfl
@[simp] theorem State.afterRead_decOut : s.afterRead.decOut = s.decOut := rfl
@[simp] theorem State.afterRead_encOut : s.afterRead.encOut = s.encOut := rfl
@[simp] theorem State.afterRead_wireOut : s.afterRead.wireOut = s.wireOut := rfl
@[simp] theorem State.afterRead_dispatched : s.afterRead.dispatched = s.dispatched := rfl
@[simp] theorem State.afterRead_closes : s.afterRead.closes = s.closes := rfl
@[simp] theorem State.afterRead_statuses : s.afterRead.statuses = s.statuses := rfl
@[simp] theorem State.afterRead_rxTaken : s.afterRead.rxTaken = s.rxTaken ++ bytesRead s.readAnswer := rfl
@[simp] theorem State.afterRead_port : s.afterRead.port = s.port := rfl
@[simp] theorem State.afterRead_sourceAnswers : s.afterRead.sourceAnswers = s.sourceAnswers.tail := rfl
@[simp] theorem State.afterRead_sinkAnswers : s.afterRead.sinkAnswers = s.sinkAnswers := rfl
@[simp] theorem State.afterRead_allocAnswers : s.afterRead.allocAnswers = s.allocAnswers := rfl
@[simp] theorem State.afterRead_registerAnswers : s.afterRead.registerAnswers = s.registerAnswers := rfl
@[simp] theorem State.afterRead_freeDraws : s.afterRead.freeDraws = nextFree (!s.sourceAnswers.isEmpty) s.freeDraws := rfl

@[simp] theorem State.afterWrite_params : s.afterWrite.params = s.params := rfl
@[simp] theorem State.afterWrite_connState : s.afterWrite.connState = s.connState := rfl
@[simp] theorem State.afterWrite_tdReason : s.afterWrite.tdReason = s.tdReason := rfl
@[simp] theorem State.afterWrite_cmdStatus : s.afterWrite.cmdStatus = s.cmdStatus := rfl
@[simp] theorem State.afterWrite_rxPhase : s.afterWrite.rxPhase = s.rxPhase := rfl
@[simp] theorem State.afterWrite_rxArmed : s.afterWrite.rxArmed = s.rxArmed := rfl
@[simp] theorem State.afterWrite_txArmed : s.afterWrite.txArmed = s.txArmed := rfl
@[simp] theorem State.afterWrite_rxHdrBuf : s.afterWrite.rxHdrBuf = s.rxHdrBuf := rfl
@[simp] theorem State.afterWrite_rxHdrCnt : s.afterWrite.rxHdrCnt = s.rxHdrCnt := rfl
@[simp] theorem State.afterWrite_txq : s.afterWrite.txq = s.txq := rfl
@[simp] theorem State.afterWrite_decOut : s.afterWrite.decOut = s.decOut := rfl
@[simp] theorem State.afterWrite_encOut : s.afterWrite.encOut = s.encOut := rfl
@[simp] theorem State.afterWrite_wireOut : s.afterWrite.wireOut = s.wireOut := rfl
@[simp] theorem State.afterWrite_dispatched : s.afterWrite.dispatched = s.dispatched := rfl
@[simp] theorem State.afterWrite_closes : s.afterWrite.closes = s.closes := rfl
@[simp] theorem State.afterWrite_statuses : s.afterWrite.statuses = s.statuses := rfl
@[simp] theorem State.afterWrite_rxTaken : s.afterWrite.rxTaken = s.rxTaken := rfl
@[simp] theorem State.afterWrite_port : s.afterWrite.port = s.port := rfl
@[simp] theorem State.afterWrite_sourceAnswers : s.afterWrite.sourceAnswers = s.sourceAnswers := rfl
@[simp] theorem State.afterWrite_sinkAnswers : s.afterWrite.sinkAnswers = s.sinkAnswers.tail := rfl
@[simp] theorem State.afterWrite_allocAnswers : s.afterWrite.allocAnswers = s.allocAnswers := rfl
@[simp] theorem State.afterWrite_registerAnswers : s.afterWrite.registerAnswers = s.registerAnswers := rfl
@[simp] theorem State.afterWrite_freeDraws : s.afterWrite.freeDraws = nextFree (!s.sinkAnswers.isEmpty) s.freeDraws := rfl

@[simp] theorem State.afterAlloc_params : s.afterAlloc.params = s.params := rfl
@[simp] theorem State.afterAlloc_connState : s.afterAlloc.connState = s.connState := rfl
@[simp] theorem State.afterAlloc_tdReason : s.afterAlloc.tdReason = s.tdReason := rfl
@[simp] theorem State.afterAlloc_cmdStatus : s.afterAlloc.cmdStatus = s.cmdStatus := rfl
@[simp] theorem State.afterAlloc_rxPhase : s.afterAlloc.rxPhase = s.rxPhase := rfl
@[simp] theorem State.afterAlloc_rxArmed : s.afterAlloc.rxArmed = s.rxArmed := rfl
@[simp] theorem State.afterAlloc_txArmed : s.afterAlloc.txArmed = s.txArmed := rfl
@[simp] theorem State.afterAlloc_rxHdrBuf : s.afterAlloc.rxHdrBuf = s.rxHdrBuf := rfl
@[simp] theorem State.afterAlloc_rxHdrCnt : s.afterAlloc.rxHdrCnt = s.rxHdrCnt := rfl
@[simp] theorem State.afterAlloc_txq : s.afterAlloc.txq = s.txq := rfl
@[simp] theorem State.afterAlloc_decOut : s.afterAlloc.decOut = s.decOut := rfl
@[simp] theorem State.afterAlloc_encOut : s.afterAlloc.encOut = s.encOut := rfl
@[simp] theorem State.afterAlloc_wireOut : s.afterAlloc.wireOut = s.wireOut := rfl
@[simp] theorem State.afterAlloc_dispatched : s.afterAlloc.dispatched = s.dispatched := rfl
@[simp] theorem State.afterAlloc_closes : s.afterAlloc.closes = s.closes := rfl
@[simp] theorem State.afterAlloc_statuses : s.afterAlloc.statuses = s.statuses := rfl
@[simp] theorem State.afterAlloc_rxTaken : s.afterAlloc.rxTaken = s.rxTaken := rfl
@[simp] theorem State.afterAlloc_port : s.afterAlloc.port = s.port := rfl
@[simp] theorem State.afterAlloc_sourceAnswers : s.afterAlloc.sourceAnswers = s.sourceAnswers := rfl
@[simp] theorem State.afterAlloc_sinkAnswers : s.afterAlloc.sinkAnswers = s.sinkAnswers := rfl
@[simp] theorem State.afterAlloc_allocAnswers : s.afterAlloc.allocAnswers = s.allocAnswers.tail := rfl
@[simp] theorem State.afterAlloc_registerAnswers : s.afterAlloc.registerAnswers = s.registerAnswers := rfl
@[simp] theorem State.afterAlloc_freeDraws : s.afterAlloc.freeDraws = nextFree (!s.allocAnswers.isEmpty) s.freeDraws := rfl

@[simp] theorem State.afterRegister_params : s.afterRegister.params = s.params := rfl
@[simp] theorem State.afterRegister_connState : s.afterRegister.connState = s.connState := rfl
@[simp] theorem State.afterRegister_tdReason : s.afterRegister.tdReason = s.tdReason := rfl
@[simp] theorem State.afterRegister_cmdStatus : s.afterRegister.cmdStatus = s.cmdStatus := rfl
@[simp] theorem State.afterRegister_rxPhase : s.afterRegister.rxPhase = s.rxPhase := rfl
@[simp] theorem State.afterRegister_rxArmed : s.afterRegister.rxArmed = s.rxArmed := rfl
@[simp] theorem State.afterRegister_txArmed : s.afterRegister.txArmed = s.txArmed := rfl
@[simp] theorem State.afterRegister_rxHdrBuf : s.afterRegister.rxHdrBuf = s.rxHdrBuf := rfl
@[simp] theorem State.afterRegister_rxHdrCnt : s.afterRegister.rxHdrCnt = s.rxHdrCnt := rfl
@[simp] theorem State.afterRegister_txq : s.afterRegister.txq = s.txq := rfl
@[simp] theorem State.afterRegister_decOut : s.afterRegister.decOut = s.decOut := rfl
@[simp] theorem State.afterRegister_encOut : s.afterRegister.encOut = s.encOut := rfl
@[simp] theorem State.afterRegister_wireOut : s.afterRegister.wireOut = s.wireOut := rfl
@[simp] theorem State.afterRegister_dispatched : s.afterRegister.dispatched = s.dispatched := rfl
@[simp] theorem State.afterRegister_closes : s.afterRegister.closes = s.closes := rfl
@[simp] theorem State.afterRegister_statuses : s.afterRegister.statuses = s.statuses := rfl
@[simp] theorem State.afterRegister_rxTaken : s.afterRegister.rxTaken = s.rxTaken := rfl
@[simp] theorem State.afterRegister_port : s.afterRegister.port = s.port := rfl
@[simp] theorem State.afterRegister_sourceAnswers : s.afterRegister.sourceAnswers = s.sourceAnswers := rfl
@[simp] theorem State.afterRegister_sinkAnswers : s.afterRegister.sinkAnswers = s.sinkAnswers := rfl
@[simp] theorem State.afterRegister_allocAnswers : s.afterRegister.allocAnswers = s.allocAnswers := rfl
@[simp] theorem State.afterRegister_registerAnswers : s.afterRegister.registerAnswers = s.registerAnswers.tail := rfl
@[simp] theorem State.afterRegister_freeDraws : s.afterRegister.freeDraws = nextFree (!s.registerAnswers.isEmpty) s.freeDraws := rfl

@[simp] theorem State.teardown_params (r : TdReason) : (s.teardown r).params = s.params := rfl
@[simp] theorem State.teardown_connState (r : TdReason) : (s.teardown r).connState = .closed := rfl
@[simp] theorem State.teardown_tdReason (r : TdReason) : (s.teardown r).tdReason = r := rfl
@[simp] theorem State.teardown_cmdStatus (r : TdReason) : (s.teardown r).cmdStatus = s.cmdStatus := rfl
@[simp] theorem State.teardown_rxPhase (r : TdReason) : (s.teardown r).rxPhase = .awaitHdr := rfl
@[simp] theorem State.teardown_rxArmed (r : TdReason) : (s.teardown r).rxArmed = false := rfl
@[simp] theorem State.teardown_txArmed (r : TdReason) : (s.teardown r).txArmed = false := rfl
@[simp] theorem State.teardown_rxHdrBuf (r : TdReason) : (s.teardown r).rxHdrBuf = Buffer.fresh 9 := rfl
@[simp] theorem State.teardown_rxHdrCnt (r : TdReason) : (s.teardown r).rxHdrCnt = 0#4 := rfl
@[simp] theorem State.teardown_txq (r : TdReason) : (s.teardown r).txq = [] := rfl
@[simp] theorem State.teardown_decOut (r : TdReason) : (s.teardown r).decOut = s.decOut := rfl
@[simp] theorem State.teardown_encOut (r : TdReason) : (s.teardown r).encOut = s.encOut := rfl
@[simp] theorem State.teardown_wireOut (r : TdReason) : (s.teardown r).wireOut = s.wireOut := rfl
@[simp] theorem State.teardown_dispatched (r : TdReason) : (s.teardown r).dispatched = s.dispatched := rfl
@[simp] theorem State.teardown_closes (r : TdReason) : (s.teardown r).closes = s.closes + 1 := rfl
@[simp] theorem State.teardown_statuses (r : TdReason) : (s.teardown r).statuses = s.statuses := rfl
@[simp] theorem State.teardown_rxTaken (r : TdReason) : (s.teardown r).rxTaken = s.rxTaken := rfl
@[simp] theorem State.teardown_port (r : TdReason) : (s.teardown r).port = s.port := rfl
@[simp] theorem State.teardown_sourceAnswers (r : TdReason) : (s.teardown r).sourceAnswers = s.sourceAnswers := rfl
@[simp] theorem State.teardown_sinkAnswers (r : TdReason) : (s.teardown r).sinkAnswers = s.sinkAnswers := rfl
@[simp] theorem State.teardown_allocAnswers (r : TdReason) : (s.teardown r).allocAnswers = s.allocAnswers := rfl
@[simp] theorem State.teardown_registerAnswers (r : TdReason) : (s.teardown r).registerAnswers = s.registerAnswers := rfl
@[simp] theorem State.teardown_freeDraws (r : TdReason) : (s.teardown r).freeDraws = s.freeDraws := rfl

@[simp] theorem State.openConnection_params : s.openConnection.params = s.params := rfl
@[simp] theorem State.openConnection_connState : s.openConnection.connState = .opened := rfl
@[simp] theorem State.openConnection_tdReason : s.openConnection.tdReason = .none := rfl
@[simp] theorem State.openConnection_cmdStatus : s.openConnection.cmdStatus = s.cmdStatus := rfl
@[simp] theorem State.openConnection_rxPhase : s.openConnection.rxPhase = .awaitHdr := rfl
@[simp] theorem State.openConnection_rxArmed : s.openConnection.rxArmed = true := rfl
@[simp] theorem State.openConnection_txArmed : s.openConnection.txArmed = false := rfl
@[simp] theorem State.openConnection_rxHdrBuf : s.openConnection.rxHdrBuf = Buffer.fresh 9 := rfl
@[simp] theorem State.openConnection_rxHdrCnt : s.openConnection.rxHdrCnt = 0#4 := rfl
@[simp] theorem State.openConnection_txq : s.openConnection.txq = [] := rfl
@[simp] theorem State.openConnection_decOut : s.openConnection.decOut = s.decOut := rfl
@[simp] theorem State.openConnection_encOut : s.openConnection.encOut = s.encOut := rfl
@[simp] theorem State.openConnection_wireOut : s.openConnection.wireOut = s.wireOut := rfl
@[simp] theorem State.openConnection_dispatched : s.openConnection.dispatched = s.dispatched := rfl
@[simp] theorem State.openConnection_closes : s.openConnection.closes = s.closes := rfl
@[simp] theorem State.openConnection_statuses : s.openConnection.statuses = s.statuses := rfl
@[simp] theorem State.openConnection_rxTaken : s.openConnection.rxTaken = s.rxTaken := rfl
@[simp] theorem State.openConnection_port : s.openConnection.port = s.port := rfl
@[simp] theorem State.openConnection_sourceAnswers : s.openConnection.sourceAnswers = s.sourceAnswers := rfl
@[simp] theorem State.openConnection_sinkAnswers : s.openConnection.sinkAnswers = s.sinkAnswers := rfl
@[simp] theorem State.openConnection_allocAnswers : s.openConnection.allocAnswers = s.allocAnswers := rfl
@[simp] theorem State.openConnection_registerAnswers : s.openConnection.registerAnswers = s.registerAnswers := rfl
@[simp] theorem State.openConnection_freeDraws : s.openConnection.freeDraws = s.freeDraws := rfl

end Sys2Proof.Machine
end

