-- ==== Sys2Proof/Laws/Lifecycle.lean ====
section
/-! SUPPORT. What CONN_OPEN's draws and TX_ENQUEUE's checks lead to, once. -/

namespace Sys2Proof.Machine

/-- The four outcomes of CONN_OPEN's draws (R210, R211). -/
theorem State.connOpen_cases (s : State) :
    (s.allocAnswer = .fail ∧ s.connOpen = s.afterAlloc.returnStatus .errAlloc) ∨
    (s.allocAnswer = .ok ∧ s.afterAlloc.registerAnswer = .fail ∧
      s.connOpen = s.afterAlloc.afterRegister.returnStatus .errRegister) ∨
    (s.allocAnswer = .ok ∧ s.afterAlloc.registerAnswer = .ok ∧
      s.afterAlloc.afterRegister.registerAnswer = .fail ∧
      s.connOpen = s.afterAlloc.afterRegister.afterRegister.returnStatus .errRegister) ∨
    (s.allocAnswer = .ok ∧ s.afterAlloc.registerAnswer = .ok ∧
      s.afterAlloc.afterRegister.registerAnswer = .ok ∧
      s.connOpen = s.afterAlloc.afterRegister.afterRegister.openConnection.returnStatus .ok) := by
  cases h₁ : s.allocAnswer
  · cases h₂ : s.afterAlloc.registerAnswer
    · cases h₃ : s.afterAlloc.afterRegister.registerAnswer
      · exact .inr (.inr (.inr ⟨rfl, rfl, rfl, by simp [State.connOpen, h₁, h₂, h₃]⟩))
      · exact .inr (.inr (.inl ⟨rfl, rfl, rfl, by simp [State.connOpen, h₁, h₂, h₃]⟩))
    · exact .inr (.inl ⟨rfl, rfl, by simp [State.connOpen, h₁, h₂]⟩)
  · exact .inl ⟨rfl, by simp [State.connOpen, h₁]⟩

/-- The queue is full exactly when it holds as many frames as a bounded `TXQ_DEPTH` allows (R171). -/
theorem State.queueFull_iff (s : State) :
    s.queueFull = true ↔ s.params.txqDepth.map QueueDepth.frames = some s.txq.length := by
  cases h : s.params.txqDepth <;> simp [State.queueFull, h, eq_comm]

/-- The four outcomes of TX_ENQUEUE on an open block (R170, R171). -/
theorem State.enqueue_cases (type flags : Byte) (sidOp : BitVec 32) (payload : List Byte) (s : State) :
    (fitsLength payload = false ∧ s.enqueue type flags sidOp payload = s.returnStatus .errTooLong) ∨
    (fitsLength payload = true ∧ s.queueFull = true ∧
      s.enqueue type flags sidOp payload = s.returnStatus .errAlloc) ∨
    (fitsLength payload = true ∧ s.queueFull = false ∧ s.allocAnswer = .fail ∧
      s.enqueue type flags sidOp payload = s.afterAlloc.returnStatus .errAlloc) ∨
    (fitsLength payload = true ∧ s.queueFull = false ∧ s.allocAnswer = .ok ∧
      s.enqueue type flags sidOp payload =
        (s.afterAlloc.appendEntry (TxEntry.ofRequest type flags sidOp payload)).returnStatus .ok) := by
  cases h₁ : fitsLength payload
  · exact .inl ⟨rfl, by simp [State.enqueue, h₁]⟩
  · cases h₂ : s.queueFull
    · cases h₃ : s.allocAnswer
      · exact .inr (.inr (.inr ⟨rfl, rfl, rfl, by simp [State.enqueue, h₁, h₂, h₃]⟩))
      · exact .inr (.inr (.inl ⟨rfl, rfl, rfl, by simp [State.enqueue, h₁, h₂, h₃]⟩))
    · exact .inr (.inl ⟨rfl, rfl, by simp [State.enqueue, h₁, h₂]⟩)

end Sys2Proof.Machine
end

