-- ==== Sys2Proof/Laws/Memory.lean ====
section
/-! SUPPORT. Laws of the buffers: read after write, the canonical form, and what an exactly filled buffer
reads as. -/

namespace Sys2Proof.Machine

/-- A read after a write to the same offset gives the value written. -/
@[simp] theorem Memory.load_store_same (m : Memory) (k : Nat) (v : Byte) : (m.store k v).load k = some v := by
  induction m with
  | nil => simp [Memory.store, Memory.load]
  | cons c rest ih =>
    obtain ⟨a, b⟩ := c
    simp only [Memory.store]
    split
    · simp [Memory.load]
    · split
      · simp [Memory.load]
      · rename_i h₁ h₂
        simp [Memory.load, ih, Ne.symm h₂]

/-- A write leaves every other offset alone. -/
theorem Memory.load_store_other (m : Memory) {k j : Nat} (v : Byte) (h : j ≠ k) :
    (m.store k v).load j = m.load j := by
  induction m with
  | nil => simp [Memory.store, Memory.load, Ne.symm h]
  | cons c rest ih =>
    obtain ⟨a, b⟩ := c
    simp only [Memory.store]
    split
    · simp [Memory.load, Ne.symm h]
    · split
      · rename_i _ h₂
        subst h₂
        simp [Memory.load, Ne.symm h]
      · simp [Memory.load, ih]

/-- Where the entries after the first keep the form, the whole does if the second is above the first. -/
theorem Memory.wf_cons (c : Host.Cell) (m : Memory) :
    Memory.wf (c :: m) = true ↔ (∀ d ∈ m.head?, c.1 < d.1) ∧ Memory.wf m = true := by
  cases m <;> simp [Memory.wf]

/-- The first entry after a write is the written one or the old first one. -/
theorem Memory.head_store (m : Memory) (k : Nat) (v : Byte) :
    ∀ d ∈ (m.store k v).head?, d.1 = k ∨ d ∈ m.head? := by
  cases m with
  | nil => simp [Memory.store]
  | cons c rest =>
    obtain ⟨a, b⟩ := c
    simp only [Memory.store]
    split
    · simp
    · split <;> simp

/-- A write keeps the canonical form. -/
theorem Memory.store_wf (m : Memory) (k : Nat) (v : Byte) (h : m.wf = true) : (m.store k v).wf = true := by
  induction m with
  | nil => rfl
  | cons c rest ih =>
    obtain ⟨a, b⟩ := c
    obtain ⟨hhead, hrest⟩ := (Memory.wf_cons _ _).1 h
    simp only [Memory.store]
    split
    · rename_i hk
      exact (Memory.wf_cons _ _).2 ⟨by simpa using hk, h⟩
    · split
      · rename_i _ hk
        subst hk
        exact (Memory.wf_cons _ _).2 ⟨hhead, hrest⟩
      · rename_i h₁ h₂
        refine (Memory.wf_cons _ _).2 ⟨fun d hd => ?_, ih hrest⟩
        rcases Memory.head_store rest k v d hd with hk | hd'
        · simp only [hk]; omega
        · exact hhead d hd'

/-- Writing a run of bytes keeps the canonical form. -/
theorem Memory.storeRange_wf (bs : List Byte) :
    ∀ (m : Memory) (off : Nat), m.wf = true → (m.storeRange off bs).wf = true := by
  induction bs with
  | nil => intro m off h; exact h
  | cons b bs ih => intro m off h; exact ih _ _ (Memory.store_wf m off b h)

/-- A run of bytes leaves every offset outside it alone. -/
theorem Memory.load_storeRange_other (bs : List Byte) :
    ∀ (m : Memory) (off j : Nat), (j < off ∨ off + bs.length ≤ j) → (m.storeRange off bs).load j = m.load j := by
  induction bs with
  | nil => intros; rfl
  | cons b bs ih =>
    intro m off j h
    simp only [List.length_cons] at h
    rw [Memory.storeRange, ih _ _ _ (by omega), Memory.load_store_other _ _ (by omega)]

/-- `MemWrite` keeps the canonical form and the buffer's size. -/
theorem Buffer.write_wf {b b' : Buffer} {off : Nat} {bs : List Byte} (h : b.write off bs = some b')
    (hwf : b.mem.wf = true) : b'.mem.wf = true ∧ b'.size = b.size := by
  simp only [Buffer.write] at h
  split at h
  · cases h; exact ⟨Memory.storeRange_wf bs _ _ hwf, rfl⟩
  · cases h

/-- The copy TX_ENQUEUE takes has the canonical form. -/
theorem Buffer.ofBytes_wf (bs : List Byte) : (Buffer.ofBytes bs).mem.wf = true :=
  Memory.storeRange_wf bs [] 0 rfl

/-- A buffer with no byte written has the canonical form. -/
theorem Buffer.fresh_wf (n : Nat) : (Buffer.fresh n).mem.wf = true := rfl

/-- Reset's one buffer has the canonical form. -/
theorem State.resetWith_hdrBuf_wf (p : Params) : (State.resetWith p).rxHdrBuf.mem.wf = true := rfl

/-- Writing above every written offset appends. -/
theorem Memory.store_append (m : Memory) (k : Nat) (v : Byte) (h : ∀ c ∈ m, c.1 < k) :
    m.store k v = m ++ [(k, v)] := by
  induction m with
  | nil => rfl
  | cons c rest ih =>
    obtain ⟨a, b⟩ := c
    have ha : a < k := h (a, b) (by simp)
    simp only [Memory.store]
    rw [if_neg (by omega), if_neg (by omega), ih fun c hc => h c (by simp [hc])]
    rfl

/-- Writing the next bytes of an exactly filled memory: it stays exactly filled, and they come last. -/
theorem Memory.storeRange_filled (bs : List Byte) : ∀ (m : Memory) (n : Nat), m.map Prod.fst = List.range n →
    (m.storeRange n bs).map Prod.fst = List.range (n + bs.length) ∧
    (m.storeRange n bs).map Prod.snd = m.map Prod.snd ++ bs := by
  induction bs with
  | nil => intro m n h; exact ⟨by simpa [Memory.storeRange] using h, by simp [Memory.storeRange]⟩
  | cons b bs ih =>
    intro m n h
    have hlt : ∀ c ∈ m, c.1 < n := fun c hc => by
      have : c.1 ∈ m.map Prod.fst := List.mem_map_of_mem hc
      simpa [h] using this
    have hs := Memory.store_append m n b hlt
    have hf : (m.store n b).map Prod.fst = List.range (n + 1) := by
      rw [hs, List.map_append, h, List.range_succ]; rfl
    obtain ⟨h₁, h₂⟩ := ih (m.store n b) (n + 1) hf
    refine ⟨by rw [Memory.storeRange, h₁, List.length_cons]; congr 1; omega, ?_⟩
    rw [Memory.storeRange, h₂, hs]
    simp

/-- A buffer with nothing written is exactly filled to 0. -/
@[simp] theorem Buffer.fresh_filled (n : Nat) : (Buffer.fresh n).filledTo 0 := rfl

/-- A fresh buffer has the size asked for. -/
@[simp] theorem Buffer.fresh_size (n : Nat) : (Buffer.fresh n).size = n := rfl

/-- A buffer with nothing written holds no bytes. -/
@[simp] theorem Buffer.fresh_bytes (n : Nat) : (Buffer.fresh n).bytes = [] := rfl

/-- An exactly filled buffer holds as many bytes as it is filled to. -/
theorem Buffer.bytes_length {b : Buffer} {n : Nat} (h : b.filledTo n) : b.bytes.length = n := by
  have := congrArg List.length h
  simpa [Buffer.bytes] using this

/-- `MemWrite` of the next bytes of an exactly filled buffer succeeds and appends. -/
theorem Buffer.write_filled {b : Buffer} {n : Nat} {bs : List Byte} (h : b.filledTo n)
    (hsize : n + bs.length ≤ b.size) :
    ∃ b', b.write n bs = some b' ∧ b'.size = b.size ∧ b'.filledTo (n + bs.length) ∧
      b'.bytes = b.bytes ++ bs := by
  obtain ⟨h₁, h₂⟩ := Memory.storeRange_filled bs b.mem n h
  exact ⟨_, if_pos hsize, rfl, h₁, h₂⟩

/-- The copy of `bs` is exactly filled and holds `bs`. -/
theorem Buffer.ofBytes_filled (bs : List Byte) :
    (Buffer.ofBytes bs).filledTo bs.length ∧ (Buffer.ofBytes bs).bytes = bs := by
  have := Memory.storeRange_filled bs [] 0 rfl
  simpa [Buffer.ofBytes, Buffer.bytes, Buffer.filledTo] using this

/-- What stands at an offset of a memory whose offsets are `start`, `start+1`, …. -/
theorem Memory.load_consecutive (m : Memory) : ∀ (start k : Nat), m.map Prod.fst = List.range' start m.length →
    m.load (start + k) = (m.map Prod.snd)[k]? := by
  induction m with
  | nil => intros; simp [Memory.load]
  | cons c rest ih =>
    intro start k h
    obtain ⟨a, b⟩ := c
    simp only [List.map_cons, List.length_cons, List.range'_succ, List.cons.injEq] at h
    obtain ⟨rfl, hrest⟩ := h
    cases k with
    | zero => simp [Memory.load]
    | succ k =>
      have := ih (a + 1) k hrest
      simp only [Memory.load, List.map_cons, List.getElem?_cons_succ, ← this]
      rw [if_neg (by omega)]
      congr 1; omega

/-- The byte at offset `k` of an exactly filled buffer. -/
theorem Buffer.load_filled {b : Buffer} {n : Nat} (h : b.filledTo n) (k : Nat) :
    b.mem.load k = b.bytes[k]? := by
  have hlen : b.mem.length = n := by simpa [Buffer.bytes] using Buffer.bytes_length h
  have := Memory.load_consecutive b.mem 0 k (by rw [h, hlen, List.range_eq_range'])
  simpa [Buffer.bytes] using this

/-- The host's view of an exactly filled buffer: the bytes it holds, and nothing beyond them. -/
theorem Buffer.byteAt_filled {b : Buffer} {n : Nat} (h : b.filledTo n) (hsize : n ≤ b.size) (k : Nat) :
    b.byteAt k = b.bytes[k]? := by
  rw [Buffer.byteAt, ← Buffer.load_filled h]
  split
  · rfl
  · rw [Buffer.load_filled h, List.getElem?_eq_none]
    rw [Buffer.bytes_length h]; omega

/-- `Buffer.byteAt` is `MemRead` of one byte. -/
theorem Buffer.read_one (b : Buffer) (k : Nat) : b.read k 1 = (b.byteAt k).map fun v => [v] := by
  rw [Buffer.read, Buffer.byteAt]
  by_cases hk : k < b.size
  · rw [if_pos (by omega), if_pos hk]
    cases h : b.mem.load k <;> simp [Memory.loadRange, h]
  · rw [if_neg (by omega), if_neg hk]; rfl

/-- A run of written bytes reads as the bytes there. -/
theorem Memory.loadRange_of_load (m : Memory) (bs : List Byte) : ∀ (off n : Nat),
    (∀ k, k < n → m.load (off + k) = bs[off + k]?) → off + n ≤ bs.length →
    m.loadRange off n = some ((bs.drop off).take n) := by
  intro off n
  induction n generalizing off with
  | zero => intros; simp [Memory.loadRange]
  | succ n ih =>
    intro h hlen
    have h0 := h 0 (by omega)
    have hrec := ih (off + 1) (fun k hk => by
      have := h (k + 1) (by omega)
      rwa [show off + 1 + k = off + (k + 1) by omega]) (by omega)
    have hlt : off < bs.length := by omega
    simp only [Nat.add_zero, List.getElem?_eq_getElem hlt] at h0
    simp only [Memory.loadRange, h0, hrec]
    rw [List.drop_eq_getElem_cons hlt, List.take_succ_cons]

/-- `MemRead` of written bytes of an exactly filled buffer. -/
theorem Buffer.read_filled {b : Buffer} {n off m : Nat} (h : b.filledTo n) (hin : off + m ≤ n)
    (hsize : n ≤ b.size) : b.read off m = some ((b.bytes.drop off).take m) := by
  rw [Buffer.read, if_pos (by omega)]
  exact Memory.loadRange_of_load _ _ _ _ (fun k _ => Buffer.load_filled h _)
    (by rw [Buffer.bytes_length h]; exact hin)

end Sys2Proof.Machine
end

