-- ==== Sys2Proof/Laws/PerInstr.lean ====
section
/-! SUPPORT. Statements about every command as syntax, one lemma per constructor of `Instr`. -/

/-- A command's encoding begins with its opcode of R96 and has the length the opcode table gives it. -/
def Sys2Proof.Laws.EncodeLength.Statement (i : Sys2Proof.Instr) : Prop :=
  (Sys2Proof.encode i).head? = some (Sys2Proof.opcode i) ∧ (Sys2Proof.encode i).length = Sys2Proof.commandLength i

namespace Sys2Proof.Laws.EncodeLength

theorem connOpen : Statement .connOpen := ⟨rfl, rfl⟩

theorem connClose : Statement .connClose := ⟨rfl, rfl⟩

theorem hdrDecode (h : HeaderBytes) : Statement (.hdrDecode h) := ⟨rfl, rfl⟩

theorem hdrEncode (len : BitVec 24) (type flags : Byte) (sidOp : BitVec 32) :
    Statement (.hdrEncode len type flags sidOp) := ⟨rfl, rfl⟩

theorem rxReady : Statement .rxReady := ⟨rfl, rfl⟩

theorem dispatchDone (v : Verdict) : Statement (.dispatchDone v) := ⟨rfl, rfl⟩

theorem txEnqueue (type flags : Byte) (sidOp : BitVec 32) (payload : List Byte) :
    Statement (.txEnqueue type flags sidOp payload) :=
  ⟨rfl, by simp [encode, operandBytes, be32Bytes, commandLength]; omega⟩

theorem txReady : Statement .txReady := ⟨rfl, rfl⟩

end Sys2Proof.Laws.EncodeLength
end

