-- ==== Sys2Proof/Laws/Receive.lean ====
section
/-! SUPPORT. What each receive sub-step answers, once: callers cite these and do not unfold the sub-step. -/

namespace Sys2Proof.Machine

/-- A receive frame just after its header is loaded is within its bounds. -/
theorem RxFrame.start_ok (h : Header) : (RxFrame.start h).Ok :=
  ⟨rfl, by simp [RxFrame.start], Buffer.fresh_filled _⟩

/-- The next bytes of a frame are stored behind the ones it holds (R141). -/
theorem RxFrame.append_ok {f : RxFrame} {bs : List Byte} (hf : f.Ok)
    (hfit : f.xfer.toNat + bs.length ≤ f.hdr.len.toNat) :
    ∃ f', f.append bs = some f' ∧ f'.Ok ∧ f'.hdr = f.hdr ∧
      f'.xfer.toNat = f.xfer.toNat + bs.length ∧ f'.buf.bytes = f.buf.bytes ++ bs := by
  obtain ⟨b', hw, hs, hfill, hbytes⟩ := Buffer.write_filled (bs := bs) hf.filled (by rw [hf.size]; exact hfit)
  have hx : (BitVec.ofNat 24 (f.xfer.toNat + bs.length)).toNat = f.xfer.toNat + bs.length := by
    have := f.hdr.len.isLt
    simp only [BitVec.toNat_ofNat]; omega
  refine ⟨⟨f.hdr, BitVec.ofNat 24 (f.xfer.toNat + bs.length), b'⟩, by simp only [RxFrame.append, hw],
    ⟨hs.trans hf.size, ?_, ?_⟩, rfl, hx, hbytes⟩
  · simp only [hx]; exact hfit
  · simp only [hx]; exact hfill

/-- A complete frame within its bounds is handed over with the bytes it holds (R146). -/
theorem dispatchFrame_complete {f : RxFrame} (hf : f.Ok) (hx : f.xfer = f.hdr.len) (s : State) :
    dispatchFrame f s = .next ((s.setRxPhase (.dispatching f)).emitDispatch ⟨f.hdr, f.buf.bytes⟩) := by
  have hfill := hf.filled
  rw [hx] at hfill
  have := Buffer.read_filled (off := 0) (m := f.hdr.len.toNat) hfill (by omega) (by rw [hf.size])
  rw [dispatchFrame, this]
  simp [← Buffer.bytes_length hfill]

/-- The four outcomes of allocating a receive frame (R137, R138). -/
theorem allocateRx_cases (h : Header) (s : State) :
    (s.params.rxBufCap < h.len ∧ allocateRx h s = .next (s.teardown .rxAlloc)) ∨
    (¬ s.params.rxBufCap < h.len ∧ s.allocAnswer = .fail ∧
      allocateRx h s = .next (s.afterAlloc.teardown .rxAlloc)) ∨
    (¬ s.params.rxBufCap < h.len ∧ s.allocAnswer = .ok ∧ h.len = 0#24 ∧
      allocateRx h s = .next ((s.afterAlloc.setRxPhase (.dispatching (RxFrame.start h))).emitDispatch ⟨h, []⟩)) ∨
    (¬ s.params.rxBufCap < h.len ∧ s.allocAnswer = .ok ∧ h.len ≠ 0#24 ∧
      allocateRx h s =
        .next ((s.afterAlloc.setRxPhase (.awaitPayload (RxFrame.start h))).setRxArmed true)) := by
  by_cases hcap : s.params.rxBufCap < h.len
  · exact .inl ⟨hcap, by simp [allocateRx, hcap, raiseTeardown]⟩
  · cases ha : s.allocAnswer with
    | fail => exact .inr (.inl ⟨hcap, rfl, by simp [allocateRx, hcap, ha, raiseTeardown]⟩)
    | ok =>
      by_cases hz : h.len = 0#24
      · refine .inr (.inr (.inl ⟨hcap, rfl, hz, ?_⟩))
        have := dispatchFrame_complete (RxFrame.start_ok h) (by simp [RxFrame.start, hz]) s.afterAlloc
        rw [allocateRx, if_neg hcap, ha]
        exact (if_pos hz).trans this
      · exact .inr (.inr (.inr ⟨hcap, rfl, hz, by simp [allocateRx, hcap, ha, hz]⟩))

/-- Nine header bytes in the buffer are decoded and the frame is allocated (R135). -/
theorem headerComplete_filled {s : State} (hsize : s.rxHdrBuf.size = 9) (hfill : s.rxHdrBuf.filledTo 9) :
    ∃ hb : HeaderBytes, hb.toList = s.rxHdrBuf.bytes ∧
      headerComplete s = allocateRx (decode9 hb) (s.setRxHdr (Buffer.fresh 9) 0#4) := by
  have hread := Buffer.read_filled (off := 0) (m := 9) hfill (by omega) (by rw [hsize])
  have hlen := Buffer.bytes_length hfill
  rw [List.drop_zero, List.take_of_length_le (by omega)] at hread
  match hb : s.rxHdrBuf.bytes, hlen with
  | [b0, b1, b2, b3, b4, b5, b6, b7, b8], _ =>
    refine ⟨⟨b0, b1, b2, b3, b4, b5, b6, b7, b8⟩, rfl, ?_⟩
    rw [headerComplete, hread, hb]
    rfl

/-- Storing header bytes behind the ones held (R132, R133). -/
theorem rxHdrBuf_write {s : State} {bs : List Byte} (hsize : s.rxHdrBuf.size = 9)
    (hfill : s.rxHdrBuf.filledTo s.rxHdrCnt.toNat) (hfit : s.rxHdrCnt.toNat + bs.length ≤ 9) :
    ∃ b, s.rxHdrBuf.write s.rxHdrCnt.toNat bs = some b ∧ b.size = 9 ∧
      b.filledTo (s.rxHdrCnt.toNat + bs.length) ∧ b.bytes = s.rxHdrBuf.bytes ++ bs := by
  obtain ⟨b, h₁, h₂, h₃, h₄⟩ := Buffer.write_filled hfill (by rw [hsize]; exact hfit)
  exact ⟨b, h₁, h₂.trans hsize, h₃, h₄⟩

end Sys2Proof.Machine
end

