-- ==== Sys2Proof/Laws/Step.lean ====
section
/-! SUPPORT. What a step can be, once. -/

namespace Sys2Proof.Machine

/-- A step that answers a next state was idle, or took a reserved opcode, or ran one decoded command. -/
theorem step_cases {s t : State} (h : step s = .next t) :
    (decode s.port = .incomplete ∧ t = s) ∨
    (∃ op rest, decode s.port = .reserved op rest ∧ t = (s.setPort rest).returnStatus .errIllegal) ∨
    (∃ i rest, decode s.port = .instr i rest ∧ exec i (s.setPort rest) = .next t) := by
  unfold step at h
  split at h
  · exact .inr (.inr ⟨_, _, ‹_›, h⟩)
  · cases h; exact .inr (.inl ⟨_, _, ‹_›, rfl⟩)
  · cases h; exact .inl ⟨‹_›, rfl⟩

/-- A step that faults ran one decoded command that faults. -/
theorem step_fault {s : State} {r : Fault} (h : step s = .fault r) :
    ∃ i rest, decode s.port = .instr i rest ∧ exec i (s.setPort rest) = .fault r := by
  unfold step at h
  split at h
  · exact ⟨_, _, ‹_›, h⟩
  · cases h
  · cases h

/-- A run of one more step goes on from the step's next state. -/
theorem run_next {s s' : State} (n : Nat) (h : step s = .next s') : core.run (n + 1) s = core.run n s' := by
  have h₁ : core.step s = .next s' := h
  have h₂ := Host.Core.run.eq_2 core s n
  rw [h₁] at h₂
  exact h₂

end Sys2Proof.Machine
end

