-- ==== Sys2Proof/Laws/Transmit.lean ====
section
/-! SUPPORT. What each transmit sub-step answers, once: callers cite these and do not unfold the sub-step. -/

namespace Sys2Proof.Machine

/-- A header is nine bytes on the wire (30_encoding.md R80). -/
@[simp] theorem Header.wireBytes_length (h : Header) : h.wireBytes.length = 9 := rfl

/-- The header part under FATAL (R182, R184, R187). -/
theorem headerWriteFatal_cases (e : TxEntry) (s : State) :
    (s.writeAnswer = .accepted 9 ∧ headerWriteFatal e s =
      .go (e.withHdrSent 9) ((s.afterWrite.putWire e.hdr.wireBytes).setHead (e.withHdrSent 9))) ∨
    (∃ k, s.writeAnswer = .accepted k ∧ 9 < k ∧
      headerWriteFatal e s = .ended (.next (s.afterWrite.teardown .txOverflow))) ∨
    (∃ k, s.writeAnswer = .accepted k ∧ k < 9 ∧ headerWriteFatal e s =
      .ended (.next ((s.afterWrite.putWire (e.hdr.wireBytes.take k)).teardown .txShortHdr))) ∨
    (s.writeAnswer = .wouldBlock ∧ headerWriteFatal e s = .ended (.next (s.afterWrite.setTxArmed true))) ∨
    (s.writeAnswer = .error ∧ headerWriteFatal e s = .ended (.next (s.afterWrite.teardown .txError))) := by
  cases ha : s.writeAnswer with
  | wouldBlock => simp [headerWriteFatal, ha]
  | error => simp [headerWriteFatal, ha, raiseTeardown]
  | accepted k =>
    rcases Nat.lt_trichotomy k 9 with hk | hk | hk
    · have h₁ : ¬ k > 9 := by omega
      have h₂ : ¬ k = 9 := by omega
      simp [headerWriteFatal, ha, h₁, h₂, hk, raiseTeardown]
    · subst hk; simp [headerWriteFatal, ha]
    · simp [headerWriteFatal, ha, hk, raiseTeardown]

/-- The header part under BUFFERED (R183, R184, R187). -/
theorem headerWriteBuffered_cases (e : TxEntry) (s : State) (he : e.hdrSent.toNat < 9) :
    (∃ k, s.writeAnswer = .accepted k ∧ e.hdrSent.toNat + k = 9 ∧ headerWriteBuffered e s =
      .go (e.withHdrSent 9)
        ((s.afterWrite.putWire (e.hdr.wireBytes.drop e.hdrSent.toNat)).setHead (e.withHdrSent 9))) ∨
    (∃ k, s.writeAnswer = .accepted k ∧ 9 < e.hdrSent.toNat + k ∧
      headerWriteBuffered e s = .ended (.next (s.afterWrite.teardown .txOverflow))) ∨
    (∃ k, s.writeAnswer = .accepted k ∧ e.hdrSent.toNat + k < 9 ∧ headerWriteBuffered e s =
      .ended (.next (((s.afterWrite.putWire ((e.hdr.wireBytes.drop e.hdrSent.toNat).take k)).setHead
        (e.withHdrSent (e.hdrSent.toNat + k))).setTxArmed true))) ∨
    (s.writeAnswer = .wouldBlock ∧ headerWriteBuffered e s = .ended (.next (s.afterWrite.setTxArmed true))) ∨
    (s.writeAnswer = .error ∧ headerWriteBuffered e s = .ended (.next (s.afterWrite.teardown .txError))) := by
  cases ha : s.writeAnswer with
  | wouldBlock => simp [headerWriteBuffered, ha]
  | error => simp [headerWriteBuffered, ha, raiseTeardown]
  | accepted k =>
    rcases Nat.lt_trichotomy (e.hdrSent.toNat + k) 9 with hk | hk | hk
    · have h₁ : ¬ k > 9 - e.hdrSent.toNat := by omega
      have h₂ : ¬ e.hdrSent.toNat + k = 9 := by omega
      simp [headerWriteBuffered, ha, h₁, h₂, hk]
    · have h₁ : ¬ k > 9 - e.hdrSent.toNat := by omega
      have h₂ : (e.hdr.wireBytes.drop e.hdrSent.toNat).take k = e.hdr.wireBytes.drop e.hdrSent.toNat :=
        List.take_of_length_le (by simp; omega)
      refine .inl ⟨k, rfl, hk, ?_⟩
      simp [headerWriteBuffered, ha, h₁, hk, h₂]
    · have h₁ : k > 9 - e.hdrSent.toNat := by omega
      simp [headerWriteBuffered, ha, h₁, hk, raiseTeardown]

/-- The payload part of an entry within its bounds (R185 to R188). -/
theorem payloadWrite_cases {mode : TxHdrMode} {e : TxEntry} (he : e.Ok mode) (s : State) :
    (∃ k, s.writeAnswer = .accepted k ∧ e.xfer.toNat + k = e.hdr.len.toNat ∧ payloadWrite e s =
      .go (e.withXfer e.hdr.len.toNat)
        ((s.afterWrite.putWire (e.payload.bytes.drop e.xfer.toNat)).setHead (e.withXfer e.hdr.len.toNat))) ∨
    (∃ k, s.writeAnswer = .accepted k ∧ e.hdr.len.toNat < e.xfer.toNat + k ∧
      payloadWrite e s = .ended (.next (s.afterWrite.teardown .txOverflow))) ∨
    (∃ k, s.writeAnswer = .accepted k ∧ e.xfer.toNat + k < e.hdr.len.toNat ∧ payloadWrite e s =
      .ended (.next (((s.afterWrite.putWire ((e.payload.bytes.drop e.xfer.toNat).take k)).setHead
        (e.withXfer (e.xfer.toNat + k))).setTxArmed true))) ∨
    (s.writeAnswer = .wouldBlock ∧ payloadWrite e s = .ended (.next (s.afterWrite.setTxArmed true))) ∨
    (s.writeAnswer = .error ∧ payloadWrite e s = .ended (.next (s.afterWrite.teardown .txError))) := by
  have hx := he.xfer
  have hlen := Buffer.bytes_length he.filled
  have hread := Buffer.read_filled (off := e.xfer.toNat) (m := e.hdr.len.toNat - e.xfer.toNat) he.filled
    (by omega) (by rw [he.size])
  rw [List.take_of_length_le (by simp; omega)] at hread
  cases ha : s.writeAnswer with
  | wouldBlock => simp [payloadWrite, hread, ha]
  | error => simp [payloadWrite, hread, ha, raiseTeardown]
  | accepted k =>
    rcases Nat.lt_trichotomy (e.xfer.toNat + k) e.hdr.len.toNat with hk | hk | hk
    · have h₁ : ¬ k > e.hdr.len.toNat - e.xfer.toNat := by omega
      have h₂ : ¬ e.xfer.toNat + k = e.hdr.len.toNat := by omega
      refine .inr (.inr (.inl ⟨k, rfl, hk, ?_⟩))
      simp [payloadWrite, hread, ha, h₁, h₂]
    · have h₁ : ¬ k > e.hdr.len.toNat - e.xfer.toNat := by omega
      have h₂ : (e.payload.bytes.drop e.xfer.toNat).take k = e.payload.bytes.drop e.xfer.toNat :=
        List.take_of_length_le (by simp; omega)
      refine .inl ⟨k, rfl, hk, ?_⟩
      simp [payloadWrite, hread, ha, h₁, hk, h₂]
    · have h₁ : k > e.hdr.len.toNat - e.xfer.toNat := by omega
      refine .inr (.inl ⟨k, rfl, hk, ?_⟩)
      simp [payloadWrite, hread, ha, h₁, raiseTeardown]

/-- The entry TX_ENQUEUE appends is within its bounds, with nothing sent (R170, R172). -/
theorem TxEntry.ofRequest_ok (mode : TxHdrMode) (type flags : Byte) (sidOp : BitVec 32) {payload : List Byte}
    (hfit : fitsLength payload = true) : (TxEntry.ofRequest type flags sidOp payload).Ok mode := by
  have hlt : payload.length < 2 ^ 24 := by simpa [fitsLength] using hfit
  have hlen : (enqueueHeader type flags sidOp payload).len.toNat = payload.length := by
    simp only [enqueueHeader, BitVec.toNat_ofNat]; omega
  obtain ⟨h₁, _⟩ := Buffer.ofBytes_filled payload
  refine ⟨?_, ?_, by simp [TxEntry.ofRequest], by simp [TxEntry.ofRequest], by simp [TxEntry.ofRequest],
    by simp [TxEntry.ofRequest], by simp [TxEntry.ofRequest]⟩
  · simp [TxEntry.ofRequest, Buffer.ofBytes, hlen]
  · simpa [TxEntry.ofRequest, hlen] using h₁

/-- What a transmit pass can change of the state: the queue, `TX_ARMED`, `WIRE_OUT` and the sink's answers. -/
def TxSame (s t : State) : Prop :=
  t = { s with
    txq := t.txq, txArmed := t.txArmed, wireOut := t.wireOut
    sinkAnswers := t.sinkAnswers, freeDraws := t.freeDraws }

theorem TxSame.refl (s : State) : TxSame s s := rfl

theorem TxSame.trans {s t u : State} (h₁ : TxSame s t) (h₂ : TxSame t u) : TxSame s u := by
  unfold TxSame at *
  rw [h₂, h₁]

/-- A transmit pass leaves every other field alone. -/
theorem TxSame.fields {s t : State} (h : TxSame s t) :
    t.params = s.params ∧ t.connState = s.connState ∧ t.tdReason = s.tdReason ∧ t.cmdStatus = s.cmdStatus ∧
    t.rxPhase = s.rxPhase ∧ t.rxArmed = s.rxArmed ∧ t.rxHdrBuf = s.rxHdrBuf ∧ t.rxHdrCnt = s.rxHdrCnt ∧
    t.decOut = s.decOut ∧ t.encOut = s.encOut ∧ t.dispatched = s.dispatched ∧ t.closes = s.closes ∧
    t.statuses = s.statuses ∧ t.rxTaken = s.rxTaken ∧ t.port = s.port ∧ t.sourceAnswers = s.sourceAnswers ∧
    t.allocAnswers = s.allocAnswers ∧ t.registerAnswers = s.registerAnswers := by
  unfold TxSame at h
  generalize t.txq = q, t.txArmed = a, t.wireOut = w, t.sinkAnswers = k, t.freeDraws = n at h
  subst h
  simp

/-- A queue a pass can run on: every entry within its bounds, and nothing sent of any but the head (R50, R55). -/
def QueueOk (mode : TxHdrMode) (q : List TxEntry) : Prop :=
  (∀ e ∈ q, e.Ok mode) ∧ ∀ e ∈ q.tail, e.hdrSent = 0#4 ∧ e.xfer = 0#24

/-- What a step of the writer does from `s`: the bytes it puts on the wire are the next unsent ones; then either
the Connection is torn down, or the queue holds exactly what is still unsent and is armed while it holds a
frame. -/
def TxMove (s t : State) : Prop :=
  ∃ sent, sent <+: s.unsent ∧
    ((∃ r u, t = u.teardown r ∧ r ≠ .none ∧ TxSame s u ∧ u.wireOut = s.wireOut ++ sent) ∨
     (TxSame s t ∧ t.wireOut = s.wireOut ++ sent ∧ s.unsent = sent ++ t.unsent ∧
      QueueOk s.params.txHdrMode t.txq ∧ t.txq.length ≤ s.txq.length ∧
      (t.txArmed = true ↔ t.txq ≠ [])))

/-- One more sub-step in front of a step of the writer. -/
theorem TxMove.after {s u t : State} {w : List Byte} (hsame : TxSame s u) (hw : u.wireOut = s.wireOut ++ w)
    (hun : s.unsent = w ++ u.unsent) (hlen : u.txq.length ≤ s.txq.length) (h : TxMove u t) : TxMove s t := by
  obtain ⟨sent, ⟨rest, hpre⟩, h⟩ := h
  have hmode : u.params = s.params := hsame.fields.1
  refine ⟨w ++ sent, ⟨rest, by rw [hun, ← hpre, List.append_assoc]⟩, ?_⟩
  rcases h with ⟨r, v, rfl, hr, hv, hwv⟩ | ⟨hst, hwt, hut, hq, hl, harm⟩
  · exact .inl ⟨r, v, rfl, hr, hsame.trans hv, by rw [hwv, hw, List.append_assoc]⟩
  · refine .inr ⟨hsame.trans hst, by rw [hwt, hw, List.append_assoc], ?_, by rw [← hmode]; exact hq, by omega, harm⟩
    rw [hun, hut, List.append_assoc]

/-- The writer ends the step in a teardown with `w` more bytes on the wire. -/
theorem TxMove.down {s u : State} {w : List Byte} (r : TdReason) (hr : r ≠ .none) (hsame : TxSame s u)
    (hw : u.wireOut = s.wireOut ++ w) (hpre : w <+: s.unsent) : TxMove s (u.teardown r) :=
  ⟨w, hpre, .inl ⟨r, u, rfl, hr, hsame, hw⟩⟩

/-- The header part of a pass on an entry within its bounds: it goes on with the whole header on the wire, or it
ends the step. -/
theorem headerPart_move {e : TxEntry} {rest : List TxEntry} {s : State} (hs : s.txq = e :: rest)
    (hq : QueueOk s.params.txHdrMode (e :: rest)) :
    (∃ u, headerPart e s = .go (e.withHdrSent 9) u ∧ TxSame s u ∧ u.txq = e.withHdrSent 9 :: rest ∧
      u.txArmed = s.txArmed ∧
      u.wireOut = s.wireOut ++ e.hdr.wireBytes.drop e.hdrSent.toNat) ∨
    (∃ t, headerPart e s = .ended (.next t) ∧ TxMove s t) := by
  have he := hq.1 e (by simp)
  have hun : s.unsent = e.hdr.wireBytes.drop e.hdrSent.toNat ++
      (e.payload.bytes.drop e.xfer.toNat ++ rest.flatMap TxEntry.unsent) := by
    simp [State.unsent, hs, TxEntry.unsent]
  -- a sub-step that changes nothing but the sink's answers and arms again
  have hstay : TxMove s (s.afterWrite.setTxArmed true) :=
    ⟨[], List.nil_prefix, .inr ⟨rfl, by simp, by simp [State.unsent], by simpa [hs] using hq, by simp,
      by simp [hs]⟩⟩
  have herr : ∀ r : TdReason, r ≠ .none → TxMove s (s.afterWrite.teardown r) := fun r hr =>
    TxMove.down (w := []) r hr rfl (by simp) List.nil_prefix
  by_cases h9 : 9 ≤ e.hdrSent.toNat
  · have : e.withHdrSent 9 = e := by
      have h : e.hdrSent = 9#4 := by apply BitVec.eq_of_toNat_eq; simp; have := he.hdrSent; omega
      cases e; simp_all [TxEntry.withHdrSent]
    refine .inl ⟨s, by rw [headerPart, if_pos h9, this], .refl s, by rw [hs, this], rfl, ?_⟩
    rw [List.drop_of_length_le (by simp; omega)]; simp
  · have hx : e.xfer.toNat = 0 := by
      by_contra hne; have := he.order hne; omega
    cases hm : s.params.txHdrMode with
    | fatal =>
      have h0 : e.hdrSent.toNat = 0 := by
        rcases he.whole hm with h | h <;> omega
      have hpart : headerPart e s = headerWriteFatal e s := by rw [headerPart, if_neg h9, hm]
      rw [hpart]
      rcases headerWriteFatal_cases e s with ⟨_, h⟩ | ⟨k, _, _, h⟩ | ⟨k, _, _, h⟩ | ⟨_, h⟩ | ⟨_, h⟩
      · exact .inl ⟨_, h, rfl, by simp [hs], rfl, by simp [h0]⟩
      · exact .inr ⟨_, h, herr _ (by decide)⟩
      · refine .inr ⟨_, h, TxMove.down (w := e.hdr.wireBytes.take k) _ (by decide) rfl (by simp) ?_⟩
        rw [hun, h0, List.drop_zero]
        exact (List.take_prefix k _).trans (List.prefix_append _ _)
      · exact .inr ⟨_, h, hstay⟩
      · exact .inr ⟨_, h, herr _ (by decide)⟩
    | buffered =>
      have hpart : headerPart e s = headerWriteBuffered e s := by rw [headerPart, if_neg h9, hm]
      rw [hpart]
      rcases headerWriteBuffered_cases e s (by omega) with
        ⟨k, _, _, h⟩ | ⟨k, _, _, h⟩ | ⟨k, _, hk, h⟩ | ⟨_, h⟩ | ⟨_, h⟩
      · exact .inl ⟨_, h, rfl, by simp [hs], rfl, by simp⟩
      · exact .inr ⟨_, h, herr _ (by decide)⟩
      · refine .inr ⟨_, h, (e.hdr.wireBytes.drop e.hdrSent.toNat).take k, ?_, .inr ⟨rfl, by simp, ?_, ?_, ?_, ?_⟩⟩
        · rw [hun]; exact (List.take_prefix k _).trans (List.prefix_append _ _)
        · have hn : (BitVec.ofNat 4 (e.hdrSent.toNat + k)).toNat = e.hdrSent.toNat + k := by
            simp only [BitVec.toNat_ofNat]; omega
          rw [hun]
          simp only [State.unsent, State.setTxArmed_txq, State.setHead_txq, State.putWire_txq,
            State.afterWrite_txq, hs, List.tail_cons, List.flatMap_cons, TxEntry.unsent, TxEntry.withHdrSent, hn]
          rw [← List.drop_drop]
          simp only [← List.append_assoc, List.take_append_drop]
        · refine ⟨fun e' he' => ?_, by simpa [hs] using hq.2⟩
          simp only [State.setTxArmed_txq, State.setHead_txq, State.putWire_txq, State.afterWrite_txq, hs,
            List.tail_cons, List.mem_cons] at he'
          rcases he' with rfl | he'
          · have hn : (BitVec.ofNat 4 (e.hdrSent.toNat + k)).toNat = e.hdrSent.toNat + k := by
              simp only [BitVec.toNat_ofNat]; omega
            exact ⟨he.size, he.filled, by simp only [TxEntry.withHdrSent, hn]; omega, he.xfer,
              fun h => absurd hx (by simpa [TxEntry.withHdrSent] using h),
              fun h => by simp only [TxEntry.withHdrSent, hn] at h; omega, fun h => by rw [hm] at h; cases h⟩
          · exact hq.1 e' (by simp [he'])
        · simp [hs]
        · simp
      · exact .inr ⟨_, h, hstay⟩
      · exact .inr ⟨_, h, herr _ (by decide)⟩

/-- The payload part of a pass, once the whole header is on the wire. -/
theorem payloadPart_move {e : TxEntry} {rest : List TxEntry} {s : State} (hs : s.txq = e :: rest)
    (hq : QueueOk s.params.txHdrMode rest) (hfresh : ∀ e' ∈ rest, e'.hdrSent = 0#4 ∧ e'.xfer = 0#24)
    (hsize : e.payload.size = e.hdr.len.toNat) (hfill : e.payload.filledTo e.hdr.len.toNat)
    (hx : e.xfer.toNat ≤ e.hdr.len.toNat) (h9 : e.hdrSent.toNat = 9) :
    (∃ e' u, payloadPart e s = .go e' u ∧ TxSame s u ∧ u.txq = e' :: rest ∧ u.txArmed = s.txArmed ∧
      u.wireOut = s.wireOut ++ e.payload.bytes.drop e.xfer.toNat) ∨
    (∃ t, payloadPart e s = .ended (.next t) ∧ TxMove s t) := by
  have hun : s.unsent = e.payload.bytes.drop e.xfer.toNat ++ rest.flatMap TxEntry.unsent := by
    simp [State.unsent, hs, TxEntry.unsent, h9]
  by_cases hdone : e.hdr.len.toNat ≤ e.xfer.toNat
  · refine .inl ⟨e, s, by rw [payloadPart, if_pos hdone], .refl s, hs, rfl, ?_⟩
    rw [List.drop_of_length_le (by rw [Buffer.bytes_length hfill]; exact hdone)]; simp
  · have he : e.Ok s.params.txHdrMode :=
      ⟨hsize, hfill, by omega, hx, fun _ => h9, fun h => by rw [h.2] at hdone; omega, fun _ => .inr h9⟩
    have hqs : QueueOk s.params.txHdrMode (e :: rest) := by
      refine ⟨fun e' h => ?_, by simpa using hfresh⟩
      rcases List.mem_cons.1 h with rfl | h
      exacts [he, hq.1 e' h]
    have hpart : payloadPart e s = payloadWrite e s := by rw [payloadPart, if_neg hdone]
    have herr : ∀ r : TdReason, r ≠ .none → TxMove s (s.afterWrite.teardown r) := fun r hr =>
      TxMove.down (w := []) r hr rfl (by simp) List.nil_prefix
    rw [hpart]
    rcases payloadWrite_cases he s with ⟨k, _, _, h⟩ | ⟨k, _, _, h⟩ | ⟨k, _, hk, h⟩ | ⟨_, h⟩ | ⟨_, h⟩
    · exact .inl ⟨_, _, h, rfl, by simp [hs], rfl, by simp⟩
    · exact .inr ⟨_, h, herr _ (by decide)⟩
    · refine .inr ⟨_, h, (e.payload.bytes.drop e.xfer.toNat).take k, ?_, .inr ⟨rfl, by simp, ?_, ?_, ?_, ?_⟩⟩
      · rw [hun]; exact (List.take_prefix k _).trans (List.prefix_append _ _)
      · have hn : (BitVec.ofNat 24 (e.xfer.toNat + k)).toNat = e.xfer.toNat + k := by
          have := e.hdr.len.isLt
          simp only [BitVec.toNat_ofNat]; omega
        rw [hun]
        simp only [State.unsent, State.setTxArmed_txq, State.setHead_txq, State.putWire_txq,
          State.afterWrite_txq, hs, List.tail_cons, List.flatMap_cons, TxEntry.unsent, TxEntry.withXfer, hn, h9]
        rw [List.drop_of_length_le (l := e.hdr.wireBytes) (by simp), ← List.drop_drop]
        simp only [List.nil_append, ← List.append_assoc, List.take_append_drop]
      · refine ⟨fun e' he' => ?_, by simpa [hs] using hfresh⟩
        simp only [State.setTxArmed_txq, State.setHead_txq, State.putWire_txq, State.afterWrite_txq, hs,
          List.tail_cons, List.mem_cons] at he'
        rcases he' with rfl | he'
        · have hn : (BitVec.ofNat 24 (e.xfer.toNat + k)).toNat = e.xfer.toNat + k := by
            have := e.hdr.len.isLt
            simp only [BitVec.toNat_ofNat]; omega
          refine ⟨hsize, hfill, by simp only [TxEntry.withXfer]; omega, by simp only [TxEntry.withXfer, hn]; omega,
            fun _ => h9, fun h => ?_, fun _ => .inr h9⟩
          have := congrArg BitVec.toNat h.2
          simp only [TxEntry.withXfer, hn] at this; omega
        · exact hq.1 e' he'
      · simp [hs]
      · simp
    · exact .inr ⟨_, h, [], List.nil_prefix, .inr ⟨rfl, by simp, by simp [State.unsent], by simpa [hs] using hqs,
        by simp, by simp [hs]⟩⟩
    · exact .inr ⟨_, h, herr _ (by decide)⟩

/-- A transmit pass on a queue with a frame answers a next state (R180 to R192), and says what it can be. -/
theorem txPass_move (q : List TxEntry) : ∀ s : State, s.txq = q → q ≠ [] → QueueOk s.params.txHdrMode q →
    s.txArmed = false → ∃ t, txPass q s = .next t ∧ TxMove s t := by
  induction q with
  | nil => intro s _ h; exact absurd rfl h
  | cons e rest ih =>
    intro s hs _ hq harm
    have he := hq.1 e (by simp)
    have hrest : QueueOk s.params.txHdrMode rest :=
      ⟨fun e' h => hq.1 e' (by simp [h]), fun e' h => hq.2 e' (by simpa using List.mem_of_mem_tail h)⟩
    rw [txPass]
    rcases headerPart_move hs hq with ⟨u, hgo, hsu, htu, hau, hwu⟩ | ⟨t, hend, hmove⟩
    · rw [hgo]
      have hpu : u.params = s.params := hsu.fields.1
      have hun : s.unsent = e.hdr.wireBytes.drop e.hdrSent.toNat ++ u.unsent := by
        simp [State.unsent, hs, htu, TxEntry.unsent, TxEntry.withHdrSent]
      simp only [Flow.andThen]
      rcases payloadPart_move (s := u) htu (by rw [hpu]; exact hrest) (by simpa using hq.2) he.size he.filled
        he.xfer (by simp [TxEntry.withHdrSent]) with ⟨e', v, hgo', hsv, htv, hav, hwv⟩ | ⟨t, hend, hmove⟩
      · rw [hgo']
        simp only
        have hpv : v.params = s.params := (hsv.fields.1).trans hpu
        have hsame : TxSame s (v.setTxq rest) := (hsu.trans hsv).trans rfl
        have hw : (v.setTxq rest).wireOut = s.wireOut ++ (e.hdr.wireBytes.drop e.hdrSent.toNat ++
            e.payload.bytes.drop e.xfer.toNat) := by
          simp [hwv, hwu, TxEntry.withHdrSent]
        have hunv : s.unsent = (e.hdr.wireBytes.drop e.hdrSent.toNat ++ e.payload.bytes.drop e.xfer.toNat) ++
            (v.setTxq rest).unsent := by
          simp [State.unsent, hs, TxEntry.unsent]
        have hnext : ∀ a : Bool, (a = true ↔ rest ≠ []) → TxMove s ((v.setTxq rest).setTxArmed a) := fun a ha =>
          ⟨_, ⟨_, hunv.symm⟩, .inr ⟨hsame.trans rfl, hw, hunv, hrest, by simp [hs], by simpa using ha⟩⟩
        by_cases hemp : rest = []
        · refine ⟨v.setTxq rest, by simp [hemp], ?_⟩
          have hv : (v.setTxq rest).setTxArmed false = v.setTxq rest := by
            have : v.txArmed = false := by rw [hav, hau, harm]
            simp [State.setTxArmed, State.setTxq, this.symm]
          rw [← hv]
          exact hnext false (by simp [hemp])
        · have hne : rest.isEmpty = false := by simpa using hemp
          simp only [hne, Bool.false_eq_true, if_false]
          cases v.params.txContinue with
          | nextNotify => exact ⟨_, rfl, hnext true (by simpa using hemp)⟩
          | samePass =>
            obtain ⟨t, ht, hm⟩ := ih (v.setTxq rest) rfl hemp (by rw [State.setTxq_params, hpv]; exact hrest)
              (by rw [State.setTxq_txArmed, hav, hau, harm])
            exact ⟨t, ht, hm.after hsame hw hunv (by simp [hs])⟩
      · rw [hend]
        exact ⟨t, rfl, hmove.after hsu hwu hun (by simp [hs, htu])⟩
    · rw [hend]
      exact ⟨t, rfl, hmove⟩

end Sys2Proof.Machine
end

