-- ==== Sys2Proof/Tests/Slice0.lean ====
section
/-! SUPPORT. Small tests against the vectors of 95_test_vectors.md, and a witness for every obligation that has
hypotheses. Names in comments (CD-9, TX-12, …) are the vectors' own. -/

namespace Sys2Proof.Tests

open Sys2Proof Sys2Proof.Machine

/-! ### WellFormed refuses ill-formed terms -/

theorem test_wf_reserved_accept : (Instr.dispatchDone (.reserved 0x00#8)).wellFormed = false := by decide

theorem test_wf_reserved_fail : (Instr.dispatchDone (.reserved 0x01#8)).wellFormed = false := by decide

theorem test_wf_reserved_two : (Instr.dispatchDone (.reserved 0x02#8)).wellFormed = true := by decide

theorem test_wf_payload_too_long (n : Nat) (h : 2 ^ 32 ≤ n) :
    (Instr.txEnqueue 0x00#8 0x00#8 0#32 (List.replicate n 0x00#8)).wellFormed = false := by
  simp [Instr.wellFormed]; omega

/-! ### Decoding words written out from the spec -/

/-- R91 and R96. -/
theorem test_decode_formats_n :
    decodeTableWord 8 0x01 = some .connOpen ∧ decodeTableWord 8 0x02 = some .connClose ∧
    decodeTableWord 8 0x20 = some .rxReady ∧ decodeTableWord 8 0x31 = some .txReady := by decide

/-- R92: `21 00`, `21 01` and RX-15's `21 02`. -/
theorem test_decode_format_v :
    decodeTableWord 16 0x0021 = some (.dispatchDone .accept) ∧
    decodeTableWord 16 0x0121 = some (.dispatchDone .fail) ∧
    decodeTableWord 16 0x0221 = some (.dispatchDone (.reserved 0x02#8)) := by decide

/-- CD-12: `10 00 00 01 00 00 01 02 03 04`. -/
theorem test_decode_format_d :
    decodeTableWord 80 0x04030201000001000010 =
      some (.hdrDecode ⟨0x00#8, 0x00#8, 0x01#8, 0x00#8, 0x00#8, 0x01#8, 0x02#8, 0x03#8, 0x04#8⟩) := by decide

/-- CD-3: `11 FF FF FF FF FF 7F FF FF FF`, and CD-4: `11 00 00 00 00 00 80 00 00 05`. -/
theorem test_decode_format_h :
    decodeTableWord 80 0xFFFFFF7FFFFFFFFFFF11 = some (.hdrEncode 0xFFFFFF#24 0xFF#8 0xFF#8 0x7FFFFFFF#32) ∧
    decodeTableWord 80 0x05000080000000000011 = some (.hdrEncode 0#24 0x00#8 0x00#8 0x80000005#32) := by decide

/-- F3 of P2: `30 00 01 00 00 00 03 00 00 00 02 AA BB`, and the byte behind it stays at the port. -/
theorem test_decode_format_q :
    decode [0x30#8, 0x00#8, 0x01#8, 0x00#8, 0x00#8, 0x00#8, 0x03#8, 0x00#8, 0x00#8, 0x00#8, 0x02#8, 0xAA#8,
      0xBB#8, 0x31#8] = .instr (.txEnqueue 0x00#8 0x01#8 3#32 [0xAA#8, 0xBB#8]) [0x31#8] := by decide

/-- LC-11 and LC-12: reserved opcodes are 1-byte commands; a command cut short is none. -/
theorem test_decode_reserved_and_short :
    decode [0x00#8, 0x01#8] = .reserved 0x00#8 [0x01#8] ∧ decode [0xFF#8] = .reserved 0xFF#8 [] ∧
    decode [0x32#8] = .reserved 0x32#8 [] ∧ decode [0x21#8] = .incomplete ∧ decode [] = .incomplete ∧
    decode [0x30#8, 0x00#8, 0x01#8, 0x00#8, 0x00#8, 0x00#8, 0x03#8, 0x00#8, 0x00#8, 0x00#8, 0x02#8, 0xAA#8] =
      .incomplete := by decide

/-! ### Small states -/

/-- The state an outcome goes on with. -/
def after : Outcome → Option State
  | .next s    => some s
  | .fault _   => none
  | .refused _ => none

/-- An outcome's fault. -/
def faultOf : Outcome → Option Fault
  | .next _    => none
  | .fault r   => some r
  | .refused _ => none

/-- The vectors' "open" start state under parameters `p`. -/
def openState (p : Params) : State := (State.resetWith p).openConnection

/-- The reference parameters with both BUFFERED modes. -/
def buffered : Params := { Params.reference with rxHdrMode := .buffered, txHdrMode := .buffered }

/-- The header of R154's frame: length 10, stream 1. -/
def header10 : Header := ⟨10#24, 0x00#8, 0x00#8, 1#31⟩

/-- R154's frame with three of its ten bytes received. -/
def frame3 : RxFrame := ⟨header10, 3#24, ⟨10, [(0, 0x41#8), (1, 0x42#8), (2, 0x43#8)]⟩⟩

/-- Awaiting the rest of that frame's payload. -/
def awaiting : State := { openState Params.reference with rxPhase := .awaitPayload frame3 }

/-- The SETTINGS ACK header. -/
def ackHeader : Header := ⟨0#24, 0x04#8, 0x01#8, 0#31⟩

/-- Dispatching a frame with header `h` and payload `bs`. -/
def dispatchingFrame (h : Header) (bs : List Byte) : State :=
  { openState Params.reference with
    rxPhase := .dispatching ⟨h, h.len, Buffer.ofBytes bs⟩, rxArmed := false, dispatched := [⟨h, bs⟩] }

/-- Dispatching an empty SETTINGS ACK frame. -/
def dispatching : State := dispatchingFrame ackHeader []

/-- Four of nine header bytes received under BUFFERED. -/
def partHeader : State :=
  { openState buffered with
    rxHdrBuf := ⟨9, [(0, 0x00#8), (1, 0x00#8), (2, 0x02#8), (3, 0xFF#8)]⟩, rxHdrCnt := 4#4 }

/-- The entry `AA BB CC` of TX-6, with `h` header bytes and `x` payload bytes sent. -/
def entry3 (h : BitVec 4) (x : BitVec 24) : TxEntry :=
  ⟨⟨3#24, 0x00#8, 0x00#8, 1#31⟩, Buffer.ofBytes [0xAA#8, 0xBB#8, 0xCC#8], h, x⟩

/-- The SETTINGS ACK entry. -/
def ackEntry : TxEntry := ⟨ackHeader, Buffer.fresh 0, 0#4, 0#24⟩

/-- An open block with queue `q` under parameters `p`, its write readiness armed. -/
def queued (p : Params) (q : List TxEntry) : State := { openState p with txq := q, txArmed := true }

/-! ### One step each -/

/-- LC-1. -/
theorem test_connOpen_ok :
    (after (execConnOpen { State.reset with allocAnswers := [.ok], registerAnswers := [.ok, .ok] })).map
      (fun t => (t.connState, t.rxArmed, t.txArmed, t.cmdStatus)) = some (.opened, true, false, .ok) := by decide

/-- LC-3. -/
theorem test_connOpen_register_fails :
    (after (execConnOpen { State.reset with allocAnswers := [.ok], registerAnswers := [.fail] })).map
      (fun t => (t.connState, t.rxArmed, t.cmdStatus)) = some (.idle, false, .errRegister) := by decide

/-- TX-17. -/
theorem test_connClose_truncates :
    (after (execConnClose (queued Params.reference [entry3 9#4 1#24, ackEntry]))).map
      (fun t => (t.connState, t.tdReason.code, t.txq, t.wireOut, t.closes)) =
      some (.closed, 0x30#8, [], [], 1) := by decide

/-- CD-12. -/
theorem test_hdrDecode_bigEndian :
    (after (execHdrDecode ⟨0x00#8, 0x00#8, 0x01#8, 0x00#8, 0x00#8, 0x01#8, 0x02#8, 0x03#8, 0x04#8⟩
      State.reset)).map (·.decOut) = some (some ⟨1#24, 0x00#8, 0x00#8, 0x01020304#31⟩) := by decide

/-- CD-9. -/
theorem test_hdrDecode_reserved_bit :
    decode9 ⟨0x00#8, 0x00#8, 0x06#8, 0x04#8, 0x00#8, 0x80#8, 0x00#8, 0x00#8, 0x00#8⟩ =
      ⟨6#24, 0x04#8, 0x00#8, 0#31⟩ := by decide

/-- CD-5. -/
theorem test_hdrEncode_drops_bit31 :
    (after (execHdrEncode 0#24 0x00#8 0x00#8 0xFFFFFFFF#32 State.reset)).map (·.encOut) =
      some (some ⟨0x00#8, 0x00#8, 0x00#8, 0x00#8, 0x00#8, 0x7F#8, 0xFF#8, 0xFF#8, 0xFF#8⟩) := by decide

/-- CD-6, read by the host as one number. -/
theorem test_hdrEncode_hostRead :
    (after (execHdrEncode 0x123456#24 0x01#8 0x25#8 1#32 State.reset)).bind (·.hostRead .encOut) =
      some 0x123456012500000001 := by decide

/-- R44 and R45: the three bytes of R154's frame that have come, the fourth that has not, and the byte past the
four header bytes held. -/
theorem test_hostRead_bytes :
    [awaiting.hostRead (.rxBuf 2), awaiting.hostRead (.rxBuf 3), partHeader.hostRead (.rxHdrBuf 4),
      (queued Params.reference [entry3 9#4 1#24]).hostRead (.txPayload 0 2)] =
      [frame3.buf.bytes[2]?.map (·.toNat), none, none, some 0xCC] := by decide

/-- RX-2. -/
theorem test_rxReady_zero_length :
    (after (execRxReady { openState Params.reference with
        sourceAnswers := [.data 0x00#8 [0x00#8, 0x00#8, 0x04#8, 0x01#8, 0x00#8, 0x00#8, 0x00#8, 0x00#8]]
        allocAnswers := [.ok] })).map
      (fun t => (t.rxPhase.code, t.rxArmed, t.dispatched)) = some (2#2, false, [⟨ackHeader, []⟩]) := by decide

/-- RX-5, its fifth step: the bytes held stay and the next is added. -/
theorem test_rxReady_buffered_header :
    (after (execRxReady { partHeader with sourceAnswers := [.data 0x07#8 []] })).map
      (fun t => (t.rxHdrCnt, t.rxHdrBuf.bytes, t.rxArmed)) =
      some (5#4, [0x00#8, 0x00#8, 0x02#8, 0xFF#8, 0x07#8], true) := by decide

/-- RX-15. -/
theorem test_dispatchDone_reserved :
    (after (execDispatchDone (.reserved 0x02#8) dispatching)).map
      (fun t => (t.cmdStatus.code, t.rxPhase.code, t.rxArmed)) = some (0x04#8, 2#2, false) := by decide

/-- RX-16. -/
theorem test_dispatchDone_fail :
    (after (execDispatchDone .fail dispatching)).map
      (fun t => (t.connState, t.tdReason.code, t.cmdStatus, t.closes)) = some (.closed, 0x20#8, .ok, 1) := by decide

/-- TX-5: bit 31 of the stream id is not stored. -/
theorem test_txEnqueue_drops_bit31 :
    (after (execTxEnqueue 0x00#8 0x00#8 0x80000003#32 [] { openState Params.reference with
        allocAnswers := [.ok] })).map (fun t => (t.txq, t.txArmed)) =
      some ([⟨⟨0#24, 0x00#8, 0x00#8, 3#31⟩, Buffer.fresh 0, 0#4, 0#24⟩], true) := by decide

/-- TX-3: a full queue, no draw. -/
theorem test_txEnqueue_full :
    (after (execTxEnqueue 0x00#8 0x00#8 1#32 [0x02#8]
      { queued { Params.reference with txqDepth := some ⟨1, by decide⟩ } [ackEntry] with allocAnswers := [.ok] })).map
      (fun t => (t.cmdStatus, t.txq, t.allocAnswers)) = some (.errAlloc, [ackEntry], [.ok]) := by decide

/-- TX-13. -/
theorem test_txReady_same_pass :
    (after (execTxReady { queued { Params.reference with txContinue := .samePass }
        [⟨⟨1#24, 0x00#8, 0x00#8, 1#31⟩, Buffer.ofBytes [0xAA#8], 0#4, 0#24⟩, ackEntry] with
        sinkAnswers := [.accepted 9, .accepted 1, .accepted 9] })).map (fun t => (t.wireOut, t.txq, t.txArmed)) =
      some ([0x00#8, 0x00#8, 0x01#8, 0x00#8, 0x00#8, 0x00#8, 0x00#8, 0x00#8, 0x01#8, 0xAA#8,
        0x00#8, 0x00#8, 0x00#8, 0x04#8, 0x01#8, 0x00#8, 0x00#8, 0x00#8, 0x00#8], [], false) := by decide

/-- TX-12. -/
theorem test_txReady_overflow :
    (after (execTxReady { queued Params.reference [entry3 0#4 0#24] with
        sinkAnswers := [.accepted 9, .accepted 4] })).map (fun t => (t.tdReason.code, t.wireOut)) =
      some (0x12#8, [0x00#8, 0x00#8, 0x03#8, 0x00#8, 0x00#8, 0x00#8, 0x00#8, 0x00#8, 0x01#8]) := by decide

/-- LC-12, through the port. -/
theorem test_reserved_opcode :
    (after (step { queued Params.reference [ackEntry] with port := [0xFF#8] })).map
      (fun t => (t.cmdStatus, t.txq, t.txArmed, t.port)) = some (.errIllegal, [ackEntry], true, []) := by decide

/-- ST-7: the last record of an id wins, and one ACK is queued. -/
theorem test_settings_last_wins :
    (match settingsHandler ⟨⟨12#24, 0x04#8, 0x00#8, 0#31⟩, [0x00#8, 0x03#8, 0x00#8, 0x00#8, 0x00#8, 0x01#8,
        0x00#8, 0x03#8, 0x00#8, 0x00#8, 0x00#8, 0x02#8]⟩
        ⟨{ openState Params.reference with allocAnswers := [.ok] }, Env.atOpen 0⟩ with
      | .next (y, v) => (y.env.remote, y.block.txq, v)
      | .fault _     => ([], [], .fail)
      | .refused _   => ([], [], .fail)) = ([(3#16, 2#32)], [ackEntry], .accept) := by decide

/-- The line of R99 for TX_ENQUEUE gives R100's encoding of SETTINGS_ACK. -/
theorem test_script_line :
    (assemble "TX_ENQUEUE    type=0x04 flags=0x01 sid=0x00000000 payload=[]   [draws: alloc=ok] ; ack").map
      (fun l => (encode l.command, l.allocs)) =
      some ([0x30#8, 0x04#8, 0x01#8, 0x00#8, 0x00#8, 0x00#8, 0x00#8, 0x00#8, 0x00#8, 0x00#8, 0x00#8], [.ok]) := by
  decide

/-- R99: a reader's answer list, and an answer of the wrong agent refused. -/
theorem test_script_answers :
    assemble "TX_READY      <- Accepted(9), WouldBlock" =
      some { command := .txReady, writes := [.accepted 9, .wouldBlock] } ∧
    assemble "RX_READY <- Accepted(9)" = none := by decide

/-- The environment an outcome goes on with. -/
def envAfter : Option SystemOutcome → Option Env
  | some (.next y) => some y.env
  | _              => none

/-- P4, step 3: a SETTINGS_SEND line is a local SETTINGS sent. The same command as a TX_ENQUEUE line is not (log 24). -/
theorem test_runLine_settingsSend :
    envAfter (System.runLine "SETTINGS_SEND () [draws: alloc=ok]" ⟨openState Params.reference, Env.atOpen 0⟩) =
      some ⟨[], [], [], 1, .awaitingAck, 0⟩ ∧
    envAfter (System.runLine "TX_ENQUEUE type=0x04 flags=0x00 sid=0 payload=[] [draws: alloc=ok]"
      ⟨openState Params.reference, Env.atOpen 0⟩) = some (Env.atOpen 0) := by decide

/-! ### The invariants of the small states -/

theorem openState_inv (p : Params) : (openState p).Inv := by
  constructor <;> simp [openState, State.resetWith]

theorem awaiting_inv : awaiting.Inv := by
  have h : frame3.Ok := ⟨rfl, by decide, rfl⟩
  constructor <;> simp [awaiting, openState, State.resetWith, Params.reference]
  exact ⟨h, by decide⟩

theorem dispatchingFrame_inv (h : Header) (bs : List Byte) (hlen : h.len.toNat = bs.length) :
    (dispatchingFrame h bs).Inv := by
  obtain ⟨h₁, h₂⟩ := Buffer.ofBytes_filled bs
  have hok : RxFrame.Ok ⟨h, h.len, Buffer.ofBytes bs⟩ := ⟨hlen.symm, Nat.le_refl _, by rw [hlen]; exact h₁⟩
  constructor <;> simp [dispatchingFrame, openState, State.resetWith, Params.reference, h₂]
  exact hok

theorem partHeader_inv : partHeader.Inv := by
  constructor <;> simp [partHeader, openState, State.resetWith, buffered]
  rfl

theorem queued_inv (p : Params) (q : List TxEntry) (hne : q ≠ []) (hd : p.txqDepth = none)
    (hq : ∀ e ∈ q, e.Ok p.txHdrMode) (ht : ∀ e ∈ q.tail, e.hdrSent = 0#4 ∧ e.xfer = 0#24) :
    (queued p q).Inv := by
  constructor <;> simp_all [queued, openState, State.resetWith]

theorem entry3_ok (m : TxHdrMode) (h : BitVec 4) (x : BitVec 24) (hh : h.toNat ≤ 9) (hx : x.toNat < 3)
    (ho : x.toNat ≠ 0 → h.toNat = 9) (hm : m = .fatal → h.toNat = 0 ∨ h.toNat = 9) : (entry3 h x).Ok m := by
  refine ⟨rfl, rfl, hh, Nat.le_of_lt hx, ho, ?_, hm⟩
  rintro ⟨_, h⟩
  rw [show x = 3#24 from h] at hx
  exact absurd hx (by decide)

theorem ackEntry_ok (m : TxHdrMode) : ackEntry.Ok m :=
  ⟨rfl, rfl, by decide, by decide, by decide, by decide, fun _ => .inl rfl⟩

/-- One part-sent entry with the ACK behind it. -/
theorem queued3_inv (p : Params) (h : BitVec 4) (x : BitVec 24) (hd : p.txqDepth = none)
    (he : (entry3 h x).Ok p.txHdrMode) : (queued p [entry3 h x, ackEntry]).Inv := by
  refine queued_inv p _ (by simp) hd (fun e h => ?_) (by simp [ackEntry])
  simp only [List.mem_cons, List.not_mem_nil, or_false] at h
  rcases h with rfl | rfl
  exacts [he, ackEntry_ok _]

/-- A write to the sink's answers keeps the invariants. -/
theorem sinkAnswers_inv {s : State} (h : s.Inv) (l : List WriteAnswer) : { s with sinkAnswers := l }.Inv := by
  obtain ⟨a, b, c, d, e, f, g, h, i, j, k, l, m, n, o⟩ := h
  constructor <;> assumption

/-- So does one to the source's and the allocator's. -/
theorem readAnswers_inv {s : State} (h : s.Inv) (l : List ReadAnswer) (l' : List Answer) :
    { s with sourceAnswers := l, allocAnswers := l' }.Inv := by
  obtain ⟨a, b, c, d, e, f, g, h, i, j, k, l, m, n, o⟩ := h
  constructor <;> assumption

/-- And one to the port. -/
theorem port_inv {s : State} (h : s.Inv) (bs : List Byte) : (s.setPort bs).Inv := by
  obtain ⟨a, b, c, d, e, f, g, h, i, j, k, l, m, n, o⟩ := h
  constructor <;> assumption

theorem txReady_enabled {s : State} (ho : s.connState = .opened) (ha : s.txArmed = true)
    (hp : s.rxPhase = .awaitHdr) : enabled .txReady s := ⟨ho, ha, by simp [hp]⟩

/-! ### A witness for every obligation with hypotheses, at the boundaries of its clauses -/

theorem witness_CodecIsInjectiveUpToReservedBit :
    (0x7FFFFFFF#32).toNat < 2 ^ 31 ∧
    encode9 0xFFFFFF#24 0xFF#8 0xFF#8 0x7FFFFFFF#32 = encode9 0xFFFFFF#24 0xFF#8 0xFF#8 0x7FFFFFFF#32 := by decide

theorem witness_EncodedCommandsDecode :
    (Instr.dispatchDone (.reserved 0xFF#8)).wellFormed = true ∧
    (Instr.txEnqueue 0x00#8 0x00#8 0x80000001#32 [0x01#8]).wellFormed = true := by decide

theorem witness_DecodedCommandsEncodeBack :
    decode [0x21#8, 0x02#8, 0x31#8] = .instr (.dispatchDone (.reserved 0x02#8)) [0x31#8] := by decide

theorem witness_ReservedOpcodesAreIllegal :
    ∀ op ∈ [0x00#8, 0x03#8, 0x0F#8, 0x12#8, 0x1F#8, 0x22#8, 0x2F#8, 0x32#8, 0xFF#8],
      ({ State.reset with port := [op] } : State).port = op :: [] ∧
      op ∉ [0x01#8, 0x02#8, 0x10#8, 0x11#8, 0x20#8, 0x21#8, 0x30#8, 0x31#8] := by decide

theorem witness_StepRunsDecodedCommand :
    decode ({ State.reset with port := [0x21#8, 0x01#8] } : State).port = .instr (.dispatchDone .fail) [] ∧
    decode ({ State.reset with port := [0x21#8] } : State).port = .incomplete := by decide

theorem witness_StepKeepsInvariant :
    ∃ s t : State, s.Inv ∧ step s = .next t ∧ t.txq = [entry3 9#4 2#24, ackEntry] :=
  ⟨_, _, sinkAnswers_inv (port_inv (queued3_inv Params.reference 9#4 1#24 rfl
    (entry3_ok _ _ _ (by decide) (by decide) (by decide) (by decide))) [0x31#8]) [.accepted 1], rfl, by decide⟩

theorem witness_InvariantRulesOutModelErrors :
    ∃ s : State, s.Inv ∧ step s = .fault .notArmed :=
  ⟨_, port_inv (dispatchingFrame_inv ackHeader [] rfl) [0x20#8], rfl⟩

theorem witness_EnabledCommandsComplete :
    ((State.resetWith buffered).Inv ∧ enabled .connOpen (State.resetWith buffered) ∧
      enabled (.hdrDecode ⟨0x00#8, 0x00#8, 0x00#8, 0x00#8, 0x00#8, 0x00#8, 0x00#8, 0x00#8, 0x00#8⟩)
        (State.resetWith buffered) ∧
      enabled (.hdrEncode 0#24 0x00#8 0x00#8 0#32) (State.resetWith buffered)) ∧
    (awaiting.Inv ∧ enabled .connClose awaiting ∧ enabled .rxReady awaiting ∧
      enabled (.txEnqueue 0x00#8 0x00#8 0#32 []) awaiting) ∧
    (dispatching.Inv ∧ enabled (.dispatchDone (.reserved 0x02#8)) dispatching) ∧
    ((queued Params.reference [entry3 0#4 0#24, ackEntry]).Inv ∧
      enabled .txReady (queued Params.reference [entry3 0#4 0#24, ackEntry])) := by
  refine ⟨⟨?_, by simp [enabled, State.resetWith], trivial, trivial⟩,
    ⟨awaiting_inv, ⟨rfl, by simp [awaiting]⟩, ⟨rfl, rfl⟩, rfl⟩,
    ⟨dispatchingFrame_inv _ _ rfl, rfl, _, rfl⟩, queued3_inv _ _ _ rfl
      (entry3_ok _ _ _ (by decide) (by decide) (by decide) (by decide)), txReady_enabled rfl rfl rfl⟩
  constructor <;> simp [State.resetWith]
  exact Buffer.fresh_filled 9

theorem witness_ParametersNeverChange :
    ∃ t, step { State.resetWith buffered with port := [0x01#8], allocAnswers := [.ok]
                                              registerAnswers := [.ok, .ok] } = .next t ∧
      t.connState = .opened := ⟨_, rfl, by decide⟩

theorem witness_CodecResultsSurviveOtherCommands :
    ∃ t, exec .connClose { awaiting with decOut := some ackHeader } = .next t := ⟨_, rfl⟩

theorem witness_OnlyTxReadyWritesTheWire :
    (∃ t, exec .txReady { queued Params.reference [ackEntry] with sinkAnswers := [.accepted 9] } = .next t ∧
      t.wireOut.length = 9) ∧
    ∃ t, exec (.txEnqueue 0x00#8 0x00#8 1#32 [0x01#8]) awaiting = .next t :=
  ⟨⟨_, rfl, by decide⟩, _, rfl⟩

theorem witness_OnlyRxReadyReadsTheSource :
    (∃ t, exec .rxReady { awaiting with sourceAnswers := [.data 0x44#8 []] } = .next t ∧ t.rxTaken = [0x44#8]) ∧
    ∃ t, exec .connClose awaiting = .next t := ⟨⟨_, rfl, by decide⟩, _, rfl⟩

theorem witness_TeardownHappensOncePerConnection :
    (∃ t, exec (.dispatchDone .accept) dispatching = .next t ∧ t.closes = 0) ∧
    ∃ t, exec (.dispatchDone .fail) dispatching = .next t ∧ t.closes = 1 := ⟨⟨_, rfl, rfl⟩, _, rfl, rfl⟩

/-- From IDLE and from CLOSED. -/
theorem witness_ConnOpenStartsConnection :
    ∀ s ∈ [State.reset, State.reset.teardown .hostClose],
      ∃ s' : State, s' = { s with allocAnswers := [.ok], registerAnswers := [.ok, .ok] } ∧
        s'.connState ≠ .opened ∧ s'.allocAnswer = .ok ∧ s'.afterAlloc.registerAnswer = .ok ∧
        s'.afterAlloc.afterRegister.registerAnswer = .ok := by
  intro s hs
  refine ⟨_, rfl, ?_, rfl, rfl, rfl⟩
  simp only [List.mem_cons, List.not_mem_nil, or_false] at hs
  rcases hs with rfl | rfl <;> decide

theorem witness_ConnOpenFailureChangesNothing :
    (∃ s : State, s.connState ≠ .opened ∧ s.allocAnswer = .fail) ∧
    (∃ s : State, s.connState ≠ .opened ∧ s.allocAnswer = .ok ∧ s.afterAlloc.registerAnswer = .fail ∧
      ∃ t, exec .connOpen s = .next t ∧ t.cmdStatus ≠ .ok) ∧
    ∃ s : State, s.connState ≠ .opened ∧ s.allocAnswer = .ok ∧
      s.afterAlloc.afterRegister.registerAnswer = .fail :=
  ⟨⟨{ State.reset with allocAnswers := [.fail] }, by decide, rfl⟩,
    ⟨{ State.reset with allocAnswers := [.ok], registerAnswers := [.fail] }, by decide, rfl, rfl, _, rfl, by decide⟩,
    { State.reset with allocAnswers := [.ok], registerAnswers := [.ok, .fail] }, by decide, rfl, rfl⟩

theorem witness_ContractFaults :
    awaiting.connState = .opened ∧ State.reset.connState ≠ .opened ∧
    (dispatching.connState = .opened ∧ dispatching.rxArmed = false ∧
      ∃ f, dispatching.rxPhase = .dispatching f) ∧
    ∀ f, awaiting.rxPhase ≠ .dispatching f :=
  ⟨rfl, by decide, ⟨rfl, rfl, _, rfl⟩, by simp [awaiting]⟩

theorem witness_ConnCloseTearsDown :
    (partHeader.connState = .opened ∧ ∀ f, partHeader.rxPhase ≠ .dispatching f) ∧
    awaiting.connState = .opened ∧ ∀ f, awaiting.rxPhase ≠ .dispatching f :=
  ⟨⟨rfl, by simp [partHeader, openState]⟩, rfl, by simp [awaiting]⟩

theorem witness_RxReadyFrame :
    (∃ t, exec .rxReady { awaiting with sourceAnswers := [.wouldBlock] } = .next t ∧ t.connState = .opened ∧
      awaiting.rxPhase ≠ .awaitHdr) ∧
    ∃ t, exec .rxReady { partHeader with sourceAnswers := [.closed] } = .next t ∧ t.connState = .closed :=
  ⟨⟨_, rfl, rfl, by simp [awaiting]⟩, _, rfl, rfl⟩

/-- Each answer, in both receiving phases. -/
theorem witness_ReadAnswersWithoutData :
    ∀ a ∈ [ReadAnswer.closed, .error, .wouldBlock], ∀ s ∈ [awaiting, partHeader, openState Params.reference],
      ∃ s' : State, s' = { s with sourceAnswers := [a] } ∧ enabled .rxReady s' ∧
        (∀ f, s'.rxPhase ≠ .dispatching f) ∧ s'.readAnswer = a := by
  intro a _ s hs
  refine ⟨_, rfl, ?_, ?_, rfl⟩ <;> simp only [List.mem_cons, List.not_mem_nil, or_false] at hs <;>
    rcases hs with rfl | rfl | rfl <;>
    simp [enabled, awaiting, partHeader, openState, State.resetWith]

/-- One byte more than asked for: 10 for 9, 6 for 5, 8 for 7. -/
theorem witness_OversizedReadTearsDown :
    ∀ p ∈ [(openState Params.reference, 10), (partHeader, 6), (awaiting, 8)],
      ∃ s' : State, s' = { p.1 with sourceAnswers := [.data 0x00#8 (List.replicate (p.2 - 1) 0x00#8)] } ∧
        enabled .rxReady s' ∧ (∀ f, s'.rxPhase ≠ .dispatching f) ∧
        s'.readAnswer = .data 0x00#8 (List.replicate (p.2 - 1) 0x00#8) ∧
        s'.readRequest < (0x00#8 :: List.replicate (p.2 - 1) 0x00#8).length := by
  intro p hp
  refine ⟨_, rfl, ?_, ?_, rfl, ?_⟩ <;> simp only [List.mem_cons, List.not_mem_nil, or_false] at hp <;>
    rcases hp with rfl | rfl | rfl
  all_goals first | decide | simp [enabled, awaiting, partHeader, openState, State.resetWith]

/-- One byte and eight. -/
theorem witness_ShortHeaderReadIsFatal :
    ∀ n ∈ [1, 8],
      ∃ s : State, s = { openState Params.reference with
          sourceAnswers := [.data 0x00#8 (List.replicate (n - 1) 0x00#8)] } ∧
        enabled .rxReady s ∧ s.rxPhase = .awaitHdr ∧ s.params.rxHdrMode = .fatal ∧
        s.readAnswer = .data 0x00#8 (List.replicate (n - 1) 0x00#8) ∧
        (0x00#8 :: List.replicate (n - 1) 0x00#8).length < 9 := by
  intro n hn
  refine ⟨_, rfl, ⟨rfl, rfl⟩, rfl, rfl, rfl, ?_⟩
  simp only [List.mem_cons, List.not_mem_nil, or_false] at hn
  rcases hn with rfl | rfl <;> decide

/-- Four more bytes make eight. -/
theorem witness_BufferedHeaderAccumulates :
    ∃ s : State, s.Inv ∧ enabled .rxReady s ∧ s.rxPhase = .awaitHdr ∧ s.params.rxHdrMode = .buffered ∧
      s.readAnswer = .data 0x00#8 [0x00#8, 0x00#8, 0x00#8] ∧
      s.rxHdrCnt.toNat + [0x00#8, 0x00#8, 0x00#8, 0x00#8].length = 8 :=
  ⟨_, readAnswers_inv partHeader_inv [.data 0x00#8 [0x00#8, 0x00#8, 0x00#8]] [], ⟨rfl, rfl⟩, rfl, rfl, rfl,
    by decide⟩

/-- Length 0 under FATAL, and length 2 from a part header under BUFFERED. -/
theorem witness_CompleteHeaderStartsFrame :
    (∃ s : State, s.Inv ∧ enabled .rxReady s ∧ s.rxPhase = .awaitHdr ∧ s.params.rxHdrMode = .fatal ∧
      s.readAnswer = .data 0x00#8 [0x00#8, 0x00#8, 0x04#8, 0x01#8, 0x00#8, 0x00#8, 0x00#8, 0x00#8] ∧
      s.rxHdrBuf.bytes ++ [0x00#8, 0x00#8, 0x00#8, 0x04#8, 0x01#8, 0x00#8, 0x00#8, 0x00#8, 0x00#8] =
        ackHeader.wireBytes ∧ s.afterRead.allocAnswer = .ok) ∧
    ∃ s : State, s.Inv ∧ enabled .rxReady s ∧ s.rxPhase = .awaitHdr ∧ s.params.rxHdrMode = .buffered ∧
      s.readAnswer = .data 0x07#8 [0x00#8, 0x00#8, 0x00#8, 0x05#8] ∧
      s.rxHdrBuf.bytes ++ [0x07#8, 0x00#8, 0x00#8, 0x00#8, 0x05#8] =
        (⟨0x00#8, 0x00#8, 0x02#8, 0xFF#8, 0x07#8, 0x00#8, 0x00#8, 0x00#8, 0x05#8⟩ : HeaderBytes).toList ∧
      (decode9 ⟨0x00#8, 0x00#8, 0x02#8, 0xFF#8, 0x07#8, 0x00#8, 0x00#8, 0x00#8, 0x05#8⟩).len ≠ 0#24 ∧
      2 ≤ s.params.rxBufCap.toNat ∧ s.afterRead.allocAnswer = .ok :=
  ⟨⟨_, readAnswers_inv (openState_inv Params.reference)
      [.data 0x00#8 [0x00#8, 0x00#8, 0x04#8, 0x01#8, 0x00#8, 0x00#8, 0x00#8, 0x00#8]] [.ok],
      ⟨rfl, rfl⟩, rfl, rfl, rfl, by decide, rfl⟩,
    _, readAnswers_inv partHeader_inv [.data 0x07#8 [0x00#8, 0x00#8, 0x00#8, 0x05#8]] [.ok],
      ⟨rfl, rfl⟩, rfl, rfl, rfl, by decide, by decide, by decide, rfl⟩

/-- RX-13's length 17 with room for 16, and a failed draw with room for exactly the length. -/
theorem witness_ReceiveAllocationFailureTearsDown :
    ∀ cap ∈ [16#24, 17#24],
      ∃ s : State, s.Inv ∧ enabled .rxReady s ∧ s.rxPhase = .awaitHdr ∧
        s.readAnswer = .data 0x00#8 [0x00#8, 0x11#8, 0x00#8, 0x00#8, 0x00#8, 0x00#8, 0x00#8, 0x01#8] ∧
        s.rxHdrBuf.bytes ++ [0x00#8, 0x00#8, 0x11#8, 0x00#8, 0x00#8, 0x00#8, 0x00#8, 0x00#8, 0x01#8] =
          (⟨0x00#8, 0x00#8, 0x11#8, 0x00#8, 0x00#8, 0x00#8, 0x00#8, 0x00#8, 0x01#8⟩ : HeaderBytes).toList ∧
        s.params.rxBufCap = cap ∧ s.afterRead.allocAnswer = .fail :=
  fun cap _ => ⟨_, readAnswers_inv (openState_inv { Params.reference with rxBufCap := cap })
    [.data 0x00#8 [0x00#8, 0x11#8, 0x00#8, 0x00#8, 0x00#8, 0x00#8, 0x00#8, 0x01#8]] [.fail],
    ⟨rfl, rfl⟩, rfl, rfl, rfl, rfl, rfl⟩

/-- Six of the seven bytes still missing. -/
theorem witness_PayloadChunkIsStored :
    ∃ s : State, s.Inv ∧ enabled .rxReady s ∧ s.rxPhase = .awaitPayload frame3 ∧
      s.readAnswer = .data 0x44#8 [0x45#8, 0x46#8, 0x47#8, 0x48#8, 0x49#8] ∧
      frame3.xfer.toNat + [0x44#8, 0x45#8, 0x46#8, 0x47#8, 0x48#8, 0x49#8].length + 1 = frame3.hdr.len.toNat :=
  ⟨_, readAnswers_inv awaiting_inv [.data 0x44#8 [0x45#8, 0x46#8, 0x47#8, 0x48#8, 0x49#8]] [], ⟨rfl, rfl⟩, rfl, rfl,
    by decide⟩

theorem witness_LastChunkDispatchesFrame :
    ∃ s : State, s.Inv ∧ enabled .rxReady s ∧ s.rxPhase = .awaitPayload frame3 ∧
      s.readAnswer = .data 0x44#8 [0x45#8, 0x46#8, 0x47#8, 0x48#8, 0x49#8, 0x4A#8] ∧
      frame3.xfer.toNat + [0x44#8, 0x45#8, 0x46#8, 0x47#8, 0x48#8, 0x49#8, 0x4A#8].length =
        frame3.hdr.len.toNat :=
  ⟨_, readAnswers_inv awaiting_inv [.data 0x44#8 [0x45#8, 0x46#8, 0x47#8, 0x48#8, 0x49#8, 0x4A#8]] [], ⟨rfl, rfl⟩,
    rfl, rfl, by decide⟩

/-- R154's last two chunks with a would-block between them. -/
def chunks : List ReadAnswer :=
  [.data 0x44#8 [0x45#8, 0x46#8], .wouldBlock, .data 0x47#8 [0x48#8, 0x49#8, 0x4A#8]]

theorem witness_PayloadIsReassembled :
    ∃ s : State, s.Inv ∧ s.connState = .opened ∧ s.rxPhase = .awaitPayload frame3 ∧
      (∀ a ∈ chunks, a ≠ .closed ∧ a ≠ .error) ∧ (∃ b bs, chunks.getLast? = some (.data b bs)) ∧
      frame3.xfer.toNat + (chunks.flatMap bytesRead).length = frame3.hdr.len.toNat ∧
      s.sourceAnswers = chunks ++ [] ∧ s.port = List.replicate chunks.length 0x20#8 ++ [] :=
  ⟨_, port_inv (readAnswers_inv awaiting_inv chunks []) [0x20#8, 0x20#8, 0x20#8], rfl, rfl, by decide,
    ⟨_, _, rfl⟩, by decide, rfl, rfl⟩

theorem witness_DispatchDoneFollowsTheVerdict :
    State.reset.connState ≠ .opened ∧ (awaiting.connState = .opened ∧ ∀ f, awaiting.rxPhase ≠ .dispatching f) ∧
    (dispatching.connState = .opened ∧ ∃ f, dispatching.rxPhase = .dispatching f) :=
  ⟨by decide, ⟨rfl, by simp [awaiting]⟩, rfl, _, rfl⟩

/-- The longest payload that fits, onto an empty queue and behind a frame. -/
theorem witness_EnqueueAppendsAndArms :
    ∀ s ∈ [openState Params.reference, queued Params.reference [ackEntry]],
      ∃ s' : State, s' = { s with allocAnswers := [.ok] } ∧ s'.connState = .opened ∧
        (List.replicate (2 ^ 24 - 1) 0x00#8).length < 2 ^ 24 ∧ s'.queueFull = false ∧ s'.allocAnswer = .ok := by
  intro s hs
  simp only [List.mem_cons, List.not_mem_nil, or_false] at hs
  rcases hs with rfl | rfl <;>
    exact ⟨_, rfl, rfl, by rw [List.length_replicate]; decide, rfl, rfl⟩

/-- Not open; one byte too long; a queue of one with room for one; a failed draw. -/
theorem witness_EnqueueRefusalsChangeNothing :
    State.reset.connState ≠ .opened ∧
    (awaiting.connState = .opened ∧ 2 ^ 24 ≤ (List.replicate (2 ^ 24) 0x00#8).length) ∧
    (∃ s : State, s.connState = .opened ∧ (List.replicate (2 ^ 24 - 1) 0x00#8).length < 2 ^ 24 ∧
      s.params.txqDepth.map QueueDepth.frames = some s.txq.length) ∧
    ∃ s : State, s.connState = .opened ∧ ([] : List Byte).length < 2 ^ 24 ∧
      s.params.txqDepth.map QueueDepth.frames ≠ some s.txq.length ∧ s.allocAnswer = .fail :=
  ⟨by decide, ⟨rfl, by rw [List.length_replicate]⟩,
    ⟨queued { Params.reference with txqDepth := some ⟨1, by decide⟩ } [ackEntry], rfl,
      by rw [List.length_replicate]; decide, rfl⟩,
    { queued { Params.reference with txqDepth := some ⟨2, by decide⟩ } [ackEntry] with allocAnswers := [.fail] }, rfl,
      by decide, by decide, rfl⟩

theorem witness_TxReadyFaultsOrIsHeld :
    State.reset.connState ≠ .opened ∧ (awaiting.connState = .opened ∧ awaiting.txArmed = false) ∧
    ∃ s : State, s.connState = .opened ∧ s.txArmed = true ∧ ∃ f, s.rxPhase = .dispatching f :=
  ⟨by decide, ⟨rfl, rfl⟩, { dispatching with txq := [ackEntry], txArmed := true }, rfl, rfl, _, rfl⟩

theorem witness_TxReadyFrame :
    ∃ s t : State, s.Inv ∧ enabled .txReady s ∧ exec .txReady s = .next t ∧ t.connState = .opened :=
  ⟨_, _, sinkAnswers_inv (queued3_inv Params.reference 9#4 1#24 rfl
    (entry3_ok _ _ _ (by decide) (by decide) (by decide) (by decide))) [.wouldBlock], txReady_enabled rfl rfl rfl, rfl, rfl⟩

/-- Both cases: the queue empties, and a successor waits for the next notification. -/
theorem witness_FinishedHeadIsReleased :
    (∃ (s : State), s.Inv ∧ enabled .txReady s ∧ s.txq = [ackEntry] ∧ s.sinkAnswers = ackEntry.takeAll ++ []) ∧
    ∃ (s : State), s.Inv ∧ enabled .txReady s ∧ s.txq = [entry3 9#4 2#24, ackEntry] ∧
      s.sinkAnswers = (entry3 9#4 2#24).takeAll ++ [] ∧ s.params.txContinue = .nextNotify :=
  ⟨⟨_, sinkAnswers_inv (queued_inv Params.reference [ackEntry] (by simp) rfl
      (by simpa using ackEntry_ok _) (by simp)) (ackEntry.takeAll ++ []), txReady_enabled rfl rfl rfl, rfl, rfl⟩,
    _, sinkAnswers_inv (queued3_inv Params.reference 9#4 2#24 rfl
      (entry3_ok _ _ _ (by decide) (by decide) (by decide) (by decide))) ((entry3 9#4 2#24).takeAll ++ []),
    txReady_enabled rfl rfl rfl, rfl, rfl, rfl⟩

theorem witness_SamePassGoesOnWithSuccessor :
    ∃ (s : State), s.Inv ∧ enabled .txReady s ∧ s.txq = [entry3 0#4 0#24, ackEntry] ∧
      s.sinkAnswers = (entry3 0#4 0#24).takeAll ++ [.wouldBlock] ∧ [ackEntry] ≠ [] ∧
      s.params.txContinue = .samePass :=
  ⟨_, sinkAnswers_inv (queued3_inv { Params.reference with txContinue := .samePass } 0#4 0#24 rfl
      (entry3_ok _ _ _ (by decide) (by decide) (by decide) (by decide)))
      ((entry3 0#4 0#24).takeAll ++ [.wouldBlock]), txReady_enabled rfl rfl rfl, rfl, rfl, by simp, rfl⟩

theorem witness_FramesGoOutInEnqueueOrder :
    ∃ s t : State, s.Inv ∧ s.connState = .opened ∧ step s = .next t ∧ t.connState = .opened ∧
      t.wireOut = [0xBB#8] :=
  ⟨_, _, sinkAnswers_inv (port_inv (queued3_inv Params.reference 9#4 1#24 rfl
    (entry3_ok _ _ _ (by decide) (by decide) (by decide) (by decide))) [0x31#8]) [.accepted 1], rfl, rfl, rfl,
    by decide⟩

theorem witness_TeardownTruncatesTheWire :
    ∃ s t : State, s.Inv ∧ exec .txReady s = .next t ∧ t.closes = s.closes + 1 ∧ t.wireOut.length = 5 :=
  ⟨_, _, sinkAnswers_inv (queued3_inv Params.reference 0#4 0#24 rfl
    (entry3_ok _ _ _ (by decide) (by decide) (by decide) (by decide))) [.accepted 5], rfl, by decide, by decide⟩

/-- One byte more than is left: 10 of 9, 6 of 5 header bytes, 4 of 3 payload bytes. -/
theorem witness_OversizedWriteTearsDown :
    ((entry3 0#4 0#24).Ok .fatal ∧ (entry3 0#4 0#24).hdrSent.toNat < 9 ∧ 9 - (entry3 0#4 0#24).hdrSent.toNat < 10) ∧
    ((entry3 4#4 0#24).Ok .buffered ∧ (entry3 4#4 0#24).hdrSent.toNat < 9 ∧
      9 - (entry3 4#4 0#24).hdrSent.toNat < 6) ∧
    ((entry3 9#4 0#24).Ok .fatal ∧ (entry3 9#4 0#24).xfer.toNat < (entry3 9#4 0#24).hdr.len.toNat ∧
      (entry3 9#4 0#24).hdr.len.toNat - (entry3 9#4 0#24).xfer.toNat < 4) ∧
    ∀ k ∈ [10, 6, 4], ({ awaiting with sinkAnswers := [.accepted k] } : State).writeAnswer = .accepted k :=
  ⟨⟨entry3_ok _ _ _ (by decide) (by decide) (by decide) (by decide), by decide, by decide⟩,
    ⟨entry3_ok _ _ _ (by decide) (by decide) (by decide) (by decide), by decide, by decide⟩,
    ⟨entry3_ok _ _ _ (by decide) (by decide) (by decide) (by decide), by decide, by decide⟩, fun _ _ => rfl⟩

/-- No byte and eight. -/
theorem witness_ShortHeaderWriteIsFatal :
    ∀ k ∈ [0, 8],
      ∃ s : State, enabled .txReady s ∧ s.txq = [entry3 0#4 0#24] ∧ s.params.txHdrMode = .fatal ∧
        (entry3 0#4 0#24).hdrSent = 0#4 ∧ s.writeAnswer = .accepted k ∧ k < 9 := by
  intro k hk
  refine ⟨{ queued Params.reference [entry3 0#4 0#24] with sinkAnswers := [.accepted k] },
    txReady_enabled rfl rfl rfl, rfl, rfl, rfl, rfl, ?_⟩
  simp only [List.mem_cons, List.not_mem_nil, or_false] at hk
  omega

/-- Each answer, with the header to send and with the payload. -/
theorem witness_WriteAnswersWithoutBytes :
    ∀ a ∈ [WriteAnswer.wouldBlock, .error], ∀ h ∈ [0#4, 9#4],
      ∃ s : State, s.Inv ∧ enabled .txReady s ∧ s.txq = [entry3 h 0#24, ackEntry] ∧ s.writeAnswer = a := by
  intro a _ h hh
  refine ⟨_, sinkAnswers_inv (queued3_inv Params.reference h 0#24 rfl (entry3_ok _ _ _ ?_ (by decide) ?_ ?_)) [a],
    txReady_enabled rfl rfl rfl, rfl, rfl⟩ <;>
    simp only [List.mem_cons, List.not_mem_nil, or_false] at hh <;> rcases hh with rfl | rfl <;> decide

/-- No byte and one short of the header, from four bytes sent. -/
theorem witness_BufferedHeaderWriteResumes :
    ∀ k ∈ [0, 4],
      ∃ s : State, s.Inv ∧ enabled .txReady s ∧ s.txq = [entry3 4#4 0#24, ackEntry] ∧
        s.params.txHdrMode = .buffered ∧ s.writeAnswer = .accepted k ∧ (entry3 4#4 0#24).hdrSent.toNat + k < 9 := by
  intro k hk
  refine ⟨_, sinkAnswers_inv (queued3_inv buffered 4#4 0#24 rfl
    (entry3_ok _ _ _ (by decide) (by decide) (by decide) (by decide))) [.accepted k], txReady_enabled rfl rfl rfl, rfl, rfl,
    rfl, ?_⟩
  simp only [List.mem_cons, List.not_mem_nil, or_false] at hk
  rcases hk with rfl | rfl <;> decide

theorem witness_HeaderWriteGoesOnToPayload :
    (∃ s : State, s.Inv ∧ enabled .txReady s ∧ s.txq = [entry3 0#4 0#24, ackEntry] ∧
      s.writeAnswer = .accepted 9 ∧ 0 < 9 ∧ (entry3 0#4 0#24).hdrSent.toNat + 9 = 9) ∧
    ∃ s : State, s.Inv ∧ enabled .txReady s ∧ s.txq = [entry3 8#4 0#24, ackEntry] ∧
      s.writeAnswer = .accepted 1 ∧ 0 < 1 ∧ (entry3 8#4 0#24).hdrSent.toNat + 1 = 9 :=
  ⟨⟨_, sinkAnswers_inv (queued3_inv Params.reference 0#4 0#24 rfl
      (entry3_ok _ _ _ (by decide) (by decide) (by decide) (by decide))) [.accepted 9], txReady_enabled rfl rfl rfl, rfl, rfl,
      by decide, by decide⟩,
    _, sinkAnswers_inv (queued3_inv buffered 8#4 0#24 rfl
      (entry3_ok _ _ _ (by decide) (by decide) (by decide) (by decide))) [.accepted 1], txReady_enabled rfl rfl rfl, rfl, rfl,
      by decide, by decide⟩

/-- No byte and one short of the payload. -/
theorem witness_PartialPayloadWriteKeepsHead :
    ∀ k ∈ [0, 1],
      ∃ s : State, s.Inv ∧ enabled .txReady s ∧ s.txq = [entry3 9#4 1#24, ackEntry] ∧
        (entry3 9#4 1#24).hdrSent = 9#4 ∧ s.writeAnswer = .accepted k ∧
        (entry3 9#4 1#24).xfer.toNat + k < (entry3 9#4 1#24).hdr.len.toNat := by
  intro k hk
  refine ⟨_, sinkAnswers_inv (queued3_inv Params.reference 9#4 1#24 rfl
    (entry3_ok _ _ _ (by decide) (by decide) (by decide) (by decide))) [.accepted k], txReady_enabled rfl rfl rfl, rfl, rfl,
    rfl, ?_⟩
  simp only [List.mem_cons, List.not_mem_nil, or_false] at hk
  rcases hk with rfl | rfl <;> decide

/-- A write that ends at the buffer's end, one past it, and a read of a byte not written. -/
theorem witness_BufferAccessObeysItsRange :
    (∃ b', (Buffer.fresh 3).write 1 [0xAA#8, 0xBB#8] = some b' ∧ (Buffer.fresh 3).mem.wf = true ∧
      b'.read 0 3 = none ∧ b'.read 1 3 = none) ∧
    (Buffer.fresh 3).write 2 [0xAA#8, 0xBB#8] = none := ⟨⟨_, rfl, rfl, by decide, by decide⟩, by decide⟩

/-- An empty frame and one of two records, with room and without. -/
theorem witness_SettingsAreStoredAndAcknowledged :
    (∃ (fr : DispatchedFrame) (y : System), ackFlag fr.hdr.flags = false ∧ fr.hdr.sid.toNat = 0 ∧
      fr.payload = recordBytes [(3#16, 100#32), (4#16, 65535#32)] ∧
      fr.hdr.len.toNat = 6 * [(3#16, 100#32), (4#16, 65535#32)].length ∧ y.block.connState = .opened ∧
      y.block.queueFull = false ∧ y.block.allocAnswer = .ok) ∧
    ∃ (fr : DispatchedFrame) (y : System), ackFlag fr.hdr.flags = false ∧ fr.hdr.sid.toNat = 0 ∧
      fr.payload = recordBytes [] ∧ fr.hdr.len.toNat = 6 * ([] : List Nat).length ∧
      y.block.connState = .opened ∧ y.block.queueFull = true :=
  ⟨⟨⟨⟨12#24, 0x04#8, 0x00#8, 0#31⟩, recordBytes [(3#16, 100#32), (4#16, 65535#32)]⟩,
      ⟨{ dispatching with allocAnswers := [.ok] }, Env.atOpen 0⟩,
      by decide, by decide, rfl, by decide, rfl, rfl, rfl⟩,
    ⟨⟨0#24, 0x04#8, 0x02#8, 0#31⟩, []⟩,
      ⟨queued { Params.reference with txqDepth := some ⟨1, by decide⟩ } [ackEntry], Env.atOpen 0⟩,
      by decide, by decide, rfl, by decide, rfl, by decide⟩

/-- Unsolicited, the last outstanding one, and one of two. -/
theorem witness_SettingsAckConfirmsPending :
    ∀ e ∈ [Env.atOpen 0, ⟨[], [], [(3#16, 100#32)], 1, .awaitingAck, 0⟩, ⟨[], [], [], 2, .awaitingAck, 0⟩],
      e.Inv ∧ ackFlag ackHeader.flags = true ∧ ackHeader.len.toNat = 0 ∧ ackHeader.sid.toNat = 0 := by
  intro e he
  refine ⟨?_, by decide, by decide, by decide⟩
  simp only [List.mem_cons, List.not_mem_nil, or_false] at he
  rcases he with rfl | rfl | rfl <;> simp [Env.Inv, Env.atOpen]

/-- ST-11. -/
theorem witness_UnknownTypeIsDiscarded :
    ∃ y : System, y.block.connState = .opened ∧ (∃ f, y.block.rxPhase = .dispatching f) ∧
      y.block.dispatched.getLast? = some ⟨⟨2#24, 0xFF#8, 0x07#8, 5#31⟩, [0xDE#8, 0xAD#8]⟩ ∧
      0xFF#8 ∉ y.block.params.dispatchTypes :=
  ⟨⟨dispatchingFrame ⟨2#24, 0xFF#8, 0x07#8, 5#31⟩ [0xDE#8, 0xAD#8], Env.atOpen 0⟩, rfl, ⟨_, rfl⟩, rfl, by decide⟩

/-- ST-2, ST-4 and ST-3. -/
theorem witness_MalformedSettingsTearDown :
    ∀ h ∈ [(⟨5#24, 0x04#8, 0x00#8, 0#31⟩ : Header), ⟨6#24, 0x04#8, 0x01#8, 0#31⟩, ⟨0#24, 0x04#8, 0x00#8, 1#31⟩],
      ∃ y : System, y.block.connState = .opened ∧ (∃ f, y.block.rxPhase = .dispatching f) ∧
        y.block.dispatched.getLast? = some ⟨h, List.replicate h.len.toNat 0x00#8⟩ ∧ h.type = 0x04#8 ∧
        0x04#8 ∈ y.block.params.dispatchTypes ∧
        ((ackFlag h.flags = false ∧ h.len.toNat % 6 ≠ 0) ∨ (ackFlag h.flags = true ∧ h.len.toNat ≠ 0) ∨
          h.sid.toNat ≠ 0) := by
  intro h hh
  refine ⟨⟨dispatchingFrame h (List.replicate h.len.toNat 0x00#8), Env.atOpen 0⟩, rfl, ⟨_, rfl⟩, rfl, ?_,
    List.mem_singleton.2 rfl, ?_⟩ <;> simp only [List.mem_cons, List.not_mem_nil, or_false] at hh <;> rcases hh with rfl | rfl | rfl <;> decide

/-- With room for the longest list that fits; a full queue; a failed draw; the shortest list that is too long. -/
theorem witness_SettingsSendAwaitsAck :
    (∃ y : System, y.block.connState = .opened ∧ 6 * (List.replicate 2796202 (3#16, 100#32)).length < 2 ^ 24 ∧
      y.block.queueFull = false ∧ y.block.allocAnswer = .ok) ∧
    (∃ y y' : System, y.block.connState = .opened ∧ y.block.queueFull = true ∧
      y.settingsSend [(3#16, 100#32)] = .next (y', false)) ∧
    (∃ y y' : System, y.block.connState = .opened ∧ y.block.allocAnswer = .fail ∧
      y.settingsSend [(3#16, 100#32)] = .next (y', false)) ∧
    (∃ y y' : System, y.block.connState = .opened ∧ y.settingsSend [(3#16, 100#32)] = .next (y', true)) ∧
    2 ^ 24 ≤ 6 * (List.replicate 2796203 (3#16, 100#32)).length :=
  ⟨⟨⟨{ awaiting with allocAnswers := [.ok] }, Env.atOpen 0⟩, rfl, by rw [List.length_replicate]; decide, rfl, rfl⟩,
    ⟨⟨queued { Params.reference with txqDepth := some ⟨1, by decide⟩ } [ackEntry], Env.atOpen 0⟩, _, rfl, rfl, rfl⟩,
    ⟨⟨{ awaiting with allocAnswers := [.fail] }, Env.atOpen 0⟩, _, rfl, rfl, rfl⟩,
    ⟨⟨{ awaiting with allocAnswers := [.ok] }, Env.atOpen 0⟩, _, rfl, rfl⟩,
    by rw [List.length_replicate]; decide⟩

theorem witness_HandshakeStateMatchesOutstanding :
    ∃ y : System, y.env.Inv ∧ y.env.outstanding = 1 ∧ (∃ y', y.step = .next y') ∧
      (∃ y', y.consume = .next y' ∧ y'.env.outstanding = 0) ∧
      (∃ y' ok, y.settingsSend [] = .next (y', ok)) ∧ ∃ y', y.runLine "DISPATCH_DONE FAIL" = some (.next y') :=
  ⟨⟨{ dispatching with allocAnswers := [.ok] }, ⟨[], [], [], 1, .awaitingAck, 0⟩⟩, by simp [Env.Inv], rfl, ⟨_, rfl⟩,
    ⟨_, rfl, by decide⟩, ⟨_, _, rfl⟩, _, rfl⟩

theorem witness_BlocksStepIndependently :
    ∃ blocks, stepOne 1 [State.reset, { State.reset with port := [0x00#8] }] = some blocks := ⟨_, rfl⟩

end Sys2Proof.Tests
end

/-! The state's invariants (10_state.md R50 to R56): every step keeps them. The invariants fall into a receive half
and a transmit half; each command touches at most one of them or tears the Connection down. What RX_READY and
TX_READY leave alone is said once, of every state, by `RxEnds` and `TxEnds`. -/

namespace Sys2Proof.Machine

/-! ### The two halves of the invariants -/

/-- `CMD_STATUS` is the status last returned (R31). -/
def State.StatusOk (s : State) : Prop := s.statuses.getLast?.getD .ok = s.cmdStatus

/-- The invariants of the receive registers (R25, R44, R51, R52, R146). -/
structure State.RxOk (s : State) : Prop where
  hdrSize   : s.rxHdrBuf.size = 9
  hdrFilled : s.rxHdrBuf.filledTo s.rxHdrCnt.toNat
  hdrCnt    : s.rxHdrCnt.toNat ≤ 8
  hdrFatal  : s.params.rxHdrMode = .fatal → s.rxHdrCnt = 0#4
  hdrPhase  : s.rxPhase ≠ .awaitHdr → s.rxHdrCnt = 0#4
  waiting   : ∀ f, s.rxPhase = .awaitPayload f → f.Ok ∧ f.xfer.toNat < f.hdr.len.toNat
  handed    : ∀ f, s.rxPhase = .dispatching f →
    f.Ok ∧ f.xfer = f.hdr.len ∧ s.dispatched.getLast? = some ⟨f.hdr, f.buf.bytes⟩

/-- R53, of an open Connection. -/
def State.RxArmedOk (s : State) : Prop := s.rxArmed = true ↔ ∀ f, s.rxPhase ≠ .dispatching f

/-- The invariants of the transmit queue of an open Connection (R50, R54, R55). -/
structure State.TxOk (s : State) : Prop where
  queue : QueueOk s.params.txHdrMode s.txq
  depth : ∀ d, s.params.txqDepth = some d → s.txq.length ≤ d.frames
  armed : s.txArmed = true ↔ s.txq ≠ []

theorem State.Inv.rxOk {s : State} (h : s.Inv) : s.RxOk :=
  ⟨h.hdrSize, h.hdrFilled, h.hdrCnt, h.hdrFatal, h.hdrPhase, h.waiting, h.handed⟩

theorem State.Inv.txOk {s : State} (h : s.Inv) (ho : s.connState = .opened) : s.TxOk :=
  ⟨⟨h.entries, h.untouched⟩, h.depth, h.txArmed ho⟩

/-- No reason is held while the Connection is open (R21). -/
theorem State.Inv.reason_opened {s : State} (h : s.Inv) (ho : s.connState = .opened) : s.tdReason = .none :=
  h.reason.2 (by simp [ho])

/-- An open Connection meets the invariants when both of its halves do. -/
theorem State.inv_of_opened {s : State} (ho : s.connState = .opened) (hreason : s.tdReason = .none)
    (hstatus : s.StatusOk) (hrx : s.RxOk) (harm : s.RxArmedOk) (htx : s.TxOk) : s.Inv where
  hdrSize   := hrx.hdrSize
  hdrFilled := hrx.hdrFilled
  hdrCnt    := hrx.hdrCnt
  hdrFatal  := hrx.hdrFatal
  hdrPhase  := hrx.hdrPhase
  waiting   := hrx.waiting
  handed    := hrx.handed
  depth     := htx.depth
  entries   := htx.queue.1
  untouched := htx.queue.2
  rxArmed   := fun _ => harm
  txArmed   := fun _ => htx.armed
  down      := fun h => absurd ho h
  reason    := by simp [hreason, ho]
  status    := hstatus

/-- The receive invariants speak of these registers only. -/
theorem State.RxOk.of_eq {s t : State} (h : s.RxOk) (hparams : t.params = s.params)
    (hbuf : t.rxHdrBuf = s.rxHdrBuf) (hcnt : t.rxHdrCnt = s.rxHdrCnt) (hphase : t.rxPhase = s.rxPhase)
    (hdisp : t.dispatched = s.dispatched) : t.RxOk := by
  obtain ⟨h₁, h₂, h₃, h₄, h₅, h₆, h₇⟩ := h
  constructor <;> simpa only [hparams, hbuf, hcnt, hphase, hdisp]

/-- The transmit invariants speak of these registers only. -/
theorem State.TxOk.of_eq {s t : State} (h : s.TxOk) (hparams : t.params = s.params) (hq : t.txq = s.txq)
    (harm : t.txArmed = s.txArmed) : t.TxOk := by
  obtain ⟨h₁, h₂, h₃⟩ := h
  constructor <;> simpa only [hparams, hq, harm]

/-! ### Updates the invariants do not look at -/

@[simp] theorem State.returnStatus_statusOk (c : CmdStatus) (s : State) : (s.returnStatus c).StatusOk := by
  simp [State.StatusOk]

/-- The status, the codec's results, the port and the draws' answers may change freely, if the status last
returned stands in `CMD_STATUS`. -/
theorem State.Inv.of_bookkeeping {s t : State} (h : s.Inv) (hstatus : t.StatusOk)
    (ht : t = { s with
      cmdStatus := t.cmdStatus, statuses := t.statuses, decOut := t.decOut, encOut := t.encOut, port := t.port
      allocAnswers := t.allocAnswers, registerAnswers := t.registerAnswers, freeDraws := t.freeDraws }) :
    t.Inv := by
  rw [ht]
  exact { h with status := hstatus }

theorem State.Inv.setPort {s : State} (h : s.Inv) (bs : List Byte) : (s.setPort bs).Inv :=
  h.of_bookkeeping h.status rfl

theorem State.Inv.returnStatus {s : State} (h : s.Inv) (c : CmdStatus) : (s.returnStatus c).Inv :=
  h.of_bookkeeping (by simp) rfl

/-- After a teardown the invariants hold whatever the registers held before (R56, R272). -/
theorem State.teardown_inv {s : State} {r : TdReason} (hr : r ≠ .none) (hstatus : s.StatusOk) :
    (s.teardown r).Inv := by
  constructor <;> simp [hr]
  exact hstatus

/-! ### RX_READY -/

/-- What a step of the receiver can change of the state. The bytes it takes stay taken (R68). -/
def RxSame (s t : State) : Prop :=
  t = { s with
    rxPhase := t.rxPhase, rxArmed := t.rxArmed, rxHdrBuf := t.rxHdrBuf, rxHdrCnt := t.rxHdrCnt
    dispatched := t.dispatched, rxTaken := t.rxTaken, sourceAnswers := t.sourceAnswers
    allocAnswers := t.allocAnswers, freeDraws := t.freeDraws } ∧
  s.rxTaken <+: t.rxTaken

theorem RxSame.refl (s : State) : RxSame s s := ⟨rfl, List.prefix_rfl⟩

theorem RxSame.trans {s t u : State} (h₁ : RxSame s t) (h₂ : RxSame t u) : RxSame s u := by
  obtain ⟨hst, hpre₁⟩ := h₁
  obtain ⟨htu, hpre₂⟩ := h₂
  exact ⟨by rw [htu, hst], hpre₁.trans hpre₂⟩

/-- A step of the receiver leaves every other field alone. -/
theorem RxSame.fields {s t : State} (h : RxSame s t) :
    t.params = s.params ∧ t.connState = s.connState ∧ t.tdReason = s.tdReason ∧ t.cmdStatus = s.cmdStatus ∧
    t.statuses = s.statuses ∧ t.txq = s.txq ∧ t.txArmed = s.txArmed ∧ t.decOut = s.decOut ∧
    t.encOut = s.encOut := by
  rw [h.1]
  simp

theorem RxSame.afterRead (s : State) : RxSame s s.afterRead := ⟨rfl, by simp⟩

/-- How a step of the receiver ends from `s`: in a teardown, or in a state that meets the receive invariants with
`RX_ARMED` as R53 has it, if `s` meets them with `RX_ARMED` cleared. -/
def RxEnds (s t : State) : Prop :=
  (RxSame s t ∧ (s.RxOk → s.rxArmed = false → t.RxOk ∧ t.RxArmedOk)) ∨
  ∃ r u, t = u.teardown r ∧ r ≠ .none ∧ RxSame s u

theorem RxEnds.down {s u : State} (r : TdReason) (hr : r ≠ .none) (h : RxSame s u) :
    RxEnds s (u.teardown r) := .inr ⟨r, u, rfl, hr, h⟩

/-- A sub-step in front that keeps what the invariants ask for. -/
theorem RxEnds.after {s u t : State} (hsame : RxSame s u) (harm : u.rxArmed = s.rxArmed)
    (hok : s.RxOk → u.RxOk) (h : RxEnds u t) : RxEnds s t := by
  rcases h with ⟨hut, himp⟩ | ⟨r, v, rfl, hr, huv⟩
  · exact .inl ⟨hsame.trans hut, fun hs ha => himp (hok hs) (harm.trans ha)⟩
  · exact .down r hr (hsame.trans huv)

/-- A would-block answer waits for the next notification (R144). -/
theorem RxEnds.wouldBlock {s : State} (hp : ∀ f, s.rxPhase ≠ .dispatching f) :
    RxEnds s (s.afterRead.setRxArmed true) :=
  .inl ⟨(RxSame.afterRead s).trans ⟨rfl, List.prefix_rfl⟩, fun hs _ =>
    ⟨hs.of_eq rfl rfl rfl rfl rfl, by simpa [State.RxArmedOk] using hp⟩⟩

/-- With no header byte held, a frame within its bounds may wait for payload. -/
theorem State.RxOk.awaitPayload {s : State} {f : RxFrame} (hs : s.RxOk) (hcnt : s.rxHdrCnt = 0#4) (hf : f.Ok)
    (hx : f.xfer.toNat < f.hdr.len.toNat) : (s.setRxPhase (.awaitPayload f)).RxOk where
  hdrSize   := hs.hdrSize
  hdrFilled := hs.hdrFilled
  hdrCnt    := hs.hdrCnt
  hdrFatal  := hs.hdrFatal
  hdrPhase  := fun _ => hcnt
  waiting   := by rintro f' ⟨⟩; exact ⟨hf, hx⟩
  handed    := by rintro f' ⟨⟩

/-- With no header byte held, a complete frame may be handed over (R146). -/
theorem State.RxOk.dispatch {s : State} {f : RxFrame} (hs : s.RxOk) (hcnt : s.rxHdrCnt = 0#4) (hf : f.Ok)
    (hx : f.xfer = f.hdr.len) :
    ((s.setRxPhase (.dispatching f)).emitDispatch ⟨f.hdr, f.buf.bytes⟩).RxOk where
  hdrSize   := hs.hdrSize
  hdrFilled := hs.hdrFilled
  hdrCnt    := hs.hdrCnt
  hdrFatal  := hs.hdrFatal
  hdrPhase  := fun _ => hcnt
  waiting   := by rintro f' ⟨⟩
  handed    := by rintro f' ⟨⟩; exact ⟨hf, hx, by simp⟩

/-- A `dispatch()` that completes has handed the frame over. -/
theorem dispatchFrame_ends {f : RxFrame} {s t : State} (h : dispatchFrame f s = .next t)
    (hok : s.RxOk → s.rxHdrCnt = 0#4 ∧ f.Ok ∧ f.xfer = f.hdr.len) : RxEnds s t := by
  have hsame : ∃ bs, t = (s.setRxPhase (.dispatching f)).emitDispatch ⟨f.hdr, bs⟩ := by
    unfold dispatchFrame at h
    split at h
    · cases h
    · cases h; exact ⟨_, rfl⟩
  refine .inl ⟨?_, fun hs ha => ?_⟩
  · obtain ⟨bs, rfl⟩ := hsame
    exact ⟨rfl, List.prefix_rfl⟩
  · obtain ⟨hcnt, hf, hx⟩ := hok hs
    rw [dispatchFrame_complete hf hx] at h
    cases h
    exact ⟨hs.dispatch hcnt hf hx, by simp [State.RxArmedOk, ha]⟩

/-- Allocating the frame of a header, once no byte of it is held any more (R137, R138). -/
theorem allocateRx_ends {hd : Header} {s t : State} (hcnt : s.rxHdrCnt = 0#4)
    (h : allocateRx hd s = .next t) : RxEnds s t := by
  have hsame : RxSame s s.afterAlloc := ⟨rfl, List.prefix_rfl⟩
  have hok (hs : s.RxOk) : s.afterAlloc.RxOk := hs.of_eq rfl rfl rfl rfl rfl
  rcases allocateRx_cases hd s with ⟨_, he⟩ | ⟨_, _, he⟩ | ⟨_, _, hz, he⟩ | ⟨_, _, hz, he⟩ <;>
    (rw [he] at h; cases h)
  · exact .down _ (by decide) (.refl s)
  · exact .down _ (by decide) hsame
  · refine .inl ⟨hsame.trans ⟨rfl, List.prefix_rfl⟩, fun hs ha => ⟨?_, by simp [State.RxArmedOk, ha]⟩⟩
    exact (hok hs).dispatch hcnt (RxFrame.start_ok hd) hz.symm
  · refine .inl ⟨hsame.trans ⟨rfl, List.prefix_rfl⟩, fun hs _ => ⟨?_, by simp [State.RxArmedOk]⟩⟩
    have hpos : 0 < hd.len.toNat := by
      rcases Nat.eq_zero_or_pos hd.len.toNat with h0 | hpos
      · exact absurd (BitVec.eq_of_toNat_eq h0) hz
      · exact hpos
    exact ((hok hs).awaitPayload hcnt (RxFrame.start_ok hd) hpos).of_eq rfl rfl rfl rfl rfl

/-- Before a frame exists, an emptied header buffer meets the receive invariants (log 8). -/
theorem State.setRxHdr_empty_rxOk {s : State} (hp : s.rxPhase = .awaitHdr) :
    (s.setRxHdr (Buffer.fresh 9) 0#4).RxOk := by
  constructor <;> simp [hp]

/-- A header completed in `u`, an earlier sub-step of the step from `s`, starts a frame or ends in a teardown
(R135). -/
theorem headerComplete_ends {s u t : State} (h : headerComplete u = .next t) (hp : u.rxPhase = .awaitHdr)
    (hsame : RxSame s u) (harm : u.rxArmed = s.rxArmed) : RxEnds s t := by
  obtain ⟨hd, h⟩ : ∃ hd, allocateRx hd (u.setRxHdr (Buffer.fresh 9) 0#4) = .next t := by
    unfold headerComplete at h
    split at h
    · cases h
    · split at h
      · cases h
      · exact ⟨_, h⟩
  have hempty : RxSame s (u.setRxHdr (Buffer.fresh 9) 0#4) := hsame.trans ⟨rfl, List.prefix_rfl⟩
  exact (allocateRx_ends rfl h).after hempty harm fun _ => State.setRxHdr_empty_rxOk hp

/-- A header read under FATAL (R132). -/
theorem headerStepFatal_ends {s t : State} (hp : s.rxPhase = .awaitHdr) (h : headerStepFatal s = .next t) :
    RxEnds s t := by
  have hread := RxSame.afterRead s
  unfold headerStepFatal at h
  split at h
  · split at h
    · cases h; exact .down _ (by decide) hread
    · split at h
      · cases h; exact .down _ (by decide) hread
      · split at h
        · cases h
        · exact headerComplete_ends h hp (hread.trans ⟨rfl, List.prefix_rfl⟩) rfl
  · cases h; exact .down _ (by decide) hread
  · cases h; exact .wouldBlock (by simp [hp])
  · cases h; exact .down _ (by decide) hread

/-- Storing fewer header bytes than are missing under BUFFERED keeps the receive invariants (R134). -/
theorem State.RxOk.storeHeaderBytes {s : State} {bs : List Byte} {buf : Buffer} (hs : s.RxOk)
    (hp : s.rxPhase = .awaitHdr) (hm : s.params.rxHdrMode = .buffered)
    (hfit : s.rxHdrCnt.toNat + bs.length ≤ 8) (hw : s.rxHdrBuf.write s.rxHdrCnt.toNat bs = some buf) :
    (s.setRxHdr buf (BitVec.ofNat 4 (s.rxHdrCnt.toNat + bs.length))).RxOk := by
  obtain ⟨_, hw', hsize, hfill, _⟩ := rxHdrBuf_write hs.hdrSize hs.hdrFilled (bs := bs) (by omega)
  cases hw.symm.trans hw'
  have hn : (BitVec.ofNat 4 (s.rxHdrCnt.toNat + bs.length)).toNat = s.rxHdrCnt.toNat + bs.length := by
    simp only [BitVec.toNat_ofNat]; omega
  constructor <;> simp only [State.setRxHdr_rxHdrBuf, State.setRxHdr_rxHdrCnt, State.setRxHdr_rxPhase,
    State.setRxHdr_params, hn, hp, hm]
  · exact hsize
  · exact hfill
  · exact hfit
  all_goals simp

/-- A header read under BUFFERED (R133, R134). -/
theorem headerStepBuffered_ends {s t : State} (hp : s.rxPhase = .awaitHdr)
    (hm : s.params.rxHdrMode = .buffered) (h : headerStepBuffered s = .next t) : RxEnds s t := by
  have hread := RxSame.afterRead s
  unfold headerStepBuffered at h
  split at h
  · split at h
    · cases h; exact .down _ (by decide) hread
    · rename_i hfit
      split at h
      · cases h
      · rename_i buf hw
        split at h
        · exact headerComplete_ends h hp (hread.trans ⟨rfl, List.prefix_rfl⟩) rfl
        · cases h
          refine .inl ⟨hread.trans ⟨rfl, List.prefix_rfl⟩, fun hs _ => ⟨?_, by simp [State.RxArmedOk, hp]⟩⟩
          have := hs.hdrCnt
          exact (hs.storeHeaderBytes hp hm (by omega) hw).of_eq rfl rfl rfl rfl rfl
  · cases h; exact .down _ (by decide) hread
  · cases h; exact .wouldBlock (by simp [hp])
  · cases h; exact .down _ (by decide) hread

/-- A payload read (R139 to R143). -/
theorem payloadStep_ends {f : RxFrame} {s t : State} (hp : s.rxPhase = .awaitPayload f)
    (h : payloadStep f s = .next t) : RxEnds s t := by
  have hread := RxSame.afterRead s
  unfold payloadStep at h
  split at h
  · split at h
    · cases h; exact .down _ (by decide) hread
    · rename_i b bs _ hfit
      split at h
      · cases h
      · rename_i f' happ
        -- what the invariants say of the longer frame
        have hlonger (hs : s.RxOk) : s.rxHdrCnt = 0#4 ∧ f'.Ok := by
          obtain ⟨hf, _⟩ := hs.waiting f hp
          have := hf.xfer
          obtain ⟨_, happ', hf', _⟩ := RxFrame.append_ok (bs := b :: bs) hf (by omega)
          cases happ.symm.trans happ'
          exact ⟨hs.hdrPhase (by simp [hp]), hf'⟩
        have hok (hs : s.RxOk) : s.afterRead.RxOk := hs.of_eq rfl rfl rfl rfl rfl
        split at h
        · rename_i hx
          refine RxEnds.after hread rfl hok (dispatchFrame_ends h fun hs => ?_)
          obtain ⟨hcnt, hf'⟩ := hlonger (hs.of_eq rfl rfl rfl rfl rfl)
          exact ⟨hcnt, hf', hx⟩
        · rename_i hx
          cases h
          refine .inl ⟨hread.trans ⟨rfl, List.prefix_rfl⟩, fun hs _ => ⟨?_, by simp [State.RxArmedOk]⟩⟩
          obtain ⟨hcnt, hf'⟩ := hlonger hs
          have hlt := Nat.lt_of_le_of_ne hf'.xfer fun he => hx (BitVec.eq_of_toNat_eq he)
          exact ((hok hs).awaitPayload hcnt hf' hlt).of_eq rfl rfl rfl rfl rfl
  · cases h; exact .down _ (by decide) hread
  · cases h; exact .wouldBlock (by simp [hp])
  · cases h; exact .down _ (by decide) hread

/-- A delivered RX_READY (R130). -/
theorem State.deliverRx_ends {s t : State} (h : s.deliverRx = .next t) :
    RxEnds ((s.setRxArmed false).returnStatus .ok) t := by
  unfold State.deliverRx at h
  cases hp : s.rxPhase with
  | awaitHdr =>
    cases hm : s.params.rxHdrMode <;> simp only [hp, hm] at h
    · exact headerStepFatal_ends hp h
    · exact headerStepBuffered_ends hp hm h
  | awaitPayload f =>
    simp only [hp] at h
    exact payloadStep_ends hp h
  | dispatching f =>
    simp only [hp] at h
    cases h
    exact .inl ⟨.refl _, fun hs _ => ⟨hs, by simp [State.RxArmedOk, hp]⟩⟩

/-- An RX_READY that completes was delivered to an open Connection. -/
theorem execRxReady_next {s t : State} (h : execRxReady s = .next t) :
    s.connState = .opened ∧ s.deliverRx = .next t := by
  unfold execRxReady at h
  split at h
  · cases h
  · rename_i ho
    split at h
    · cases h
    · exact ⟨not_not.1 ho, h⟩

/-- RX_READY keeps the invariants. -/
theorem execRxReady_inv {s t : State} (hs : s.Inv) (h : execRxReady s = .next t) : t.Inv := by
  obtain ⟨ho, h⟩ := execRxReady_next h
  rcases State.deliverRx_ends h with ⟨hsame, hok⟩ | ⟨r, u, rfl, hr, hsame⟩ <;>
    obtain ⟨hparams, hconn, hreason, hcmd, hstat, hq, htx, _, _⟩ := hsame.fields
  · obtain ⟨hrx, harm⟩ := hok (hs.rxOk.of_eq rfl rfl rfl rfl rfl) rfl
    exact State.inv_of_opened (hconn.trans ho) (hreason.trans (hs.reason_opened ho))
      (by simp [State.StatusOk, hcmd, hstat]) hrx harm ((hs.txOk ho).of_eq hparams hq htx)
  · exact State.teardown_inv hr (by simp [State.StatusOk, hcmd, hstat])

/-! ### TX_ENQUEUE and TX_READY -/

/-- An entry with nothing sent may follow the ones a queue holds. -/
theorem QueueOk.append {mode : TxHdrMode} {q : List TxEntry} {e : TxEntry} (hq : QueueOk mode q)
    (he : e.Ok mode) (hsent : e.hdrSent = 0#4) (hx : e.xfer = 0#24) : QueueOk mode (q ++ [e]) := by
  obtain ⟨hall, htail⟩ := hq
  constructor
  · intro e' he'
    rcases List.mem_append.1 he' with he' | he'
    · exact hall e' he'
    · rw [List.mem_singleton.1 he']; exact he
  · cases q with
    | nil => simp
    | cons e₀ rest =>
      intro e' he'
      rcases List.mem_append.1 he' with he' | he'
      · exact htail e' he'
      · rw [List.mem_singleton.1 he']; exact ⟨hsent, hx⟩

/-- Appending an entry with nothing sent to a queue that is not full keeps the transmit invariants (R172). -/
theorem State.TxOk.appendEntry {s : State} {e : TxEntry} (hs : s.TxOk) (hfull : s.queueFull = false)
    (he : e.Ok s.params.txHdrMode) (hsent : e.hdrSent = 0#4) (hx : e.xfer = 0#24) : (s.appendEntry e).TxOk where
  queue := hs.queue.append he hsent hx
  depth d hd := by
    have hd : s.params.txqDepth = some d := hd
    have hle := hs.depth d hd
    have hne : s.txq.length ≠ d.frames := by simpa [State.queueFull, hd] using hfull
    simp only [State.appendEntry_txq, List.length_append, List.length_singleton]
    omega
  armed := by
    rw [State.appendEntry_txArmed, State.appendEntry_txq]
    by_cases hq : s.txq = []
    · simp [hq]
    · simp [hs.armed.2 hq]

/-- TX_ENQUEUE keeps the invariants. -/
theorem State.enqueue_inv {s : State} (hs : s.Inv) (ho : s.connState = .opened) (type flags : Byte)
    (sidOp : BitVec 32) (payload : List Byte) : (s.enqueue type flags sidOp payload).Inv := by
  rcases State.enqueue_cases type flags sidOp payload s with
    ⟨_, he⟩ | ⟨_, _, he⟩ | ⟨_, _, _, he⟩ | ⟨hfit, hfull, _, he⟩ <;> rw [he]
  · exact hs.returnStatus _
  · exact hs.returnStatus _
  · exact hs.of_bookkeeping (by simp) rfl
  · have htx : s.afterAlloc.TxOk := (hs.txOk ho).of_eq rfl rfl rfl
    have happ := htx.appendEntry hfull (TxEntry.ofRequest_ok _ type flags sidOp hfit) rfl rfl
    exact State.inv_of_opened ho (hs.reason_opened ho) (by simp) (hs.rxOk.of_eq rfl rfl rfl rfl rfl)
      (hs.rxArmed ho) (happ.of_eq rfl rfl rfl)

/-- A TX_READY that completes on an open, armed Connection was held or delivered (R181, R284). -/
theorem execTxReady_next {s t : State} (h : execTxReady s = .next t) :
    s.connState = .opened ∧ s.txArmed = true ∧ (t = s ∨ s.deliverTx = .next t) := by
  unfold execTxReady at h
  split at h
  · cases h
  · rename_i ho
    split at h
    · cases h
    · rename_i ha
      refine ⟨not_not.1 ho, by simpa using ha, ?_⟩
      split at h
      · cases h; exact .inl rfl
      · exact .inr h
      · exact .inr h

/-- A delivered TX_READY keeps the invariants. -/
theorem State.deliverTx_inv {s t : State} (hs : s.Inv) (ho : s.connState = .opened) (ha : s.txArmed = true)
    (h : s.deliverTx = .next t) : t.Inv := by
  have htx := hs.txOk ho
  obtain ⟨t', ht', _, _, hmove⟩ := txPass_move s.txq ((s.setTxArmed false).returnStatus .ok) rfl
    (htx.armed.1 ha) htx.queue rfl
  cases h.symm.trans ht'
  rcases hmove with ⟨r, u, rfl, hr, hsame, _⟩ | ⟨hsame, _, _, hq, hlen, harm⟩ <;>
    obtain ⟨hparams, hconn, hreason, hcmd, hphase, hrxa, hbuf, hcnt, _, _, hdisp, _, hstat, _⟩ := hsame.fields
  · exact State.teardown_inv hr (by simp [State.StatusOk, hcmd, hstat])
  · refine State.inv_of_opened (hconn.trans ho) (hreason.trans (hs.reason_opened ho))
      (by simp [State.StatusOk, hcmd, hstat]) (hs.rxOk.of_eq hparams hbuf hcnt hphase hdisp) ?_
      ⟨by rw [hparams]; exact hq, fun d hd => hlen.trans (htx.depth d (hparams ▸ hd)), harm⟩
    rw [State.RxArmedOk, hrxa, hphase]
    exact hs.rxArmed ho

/-- TX_READY keeps the invariants. -/
theorem execTxReady_inv {s t : State} (hs : s.Inv) (h : execTxReady s = .next t) : t.Inv := by
  obtain ⟨ho, ha, rfl | h⟩ := execTxReady_next h
  · exact hs
  · exact State.deliverTx_inv hs ho ha h

/-! ### The other commands -/

/-- A Connection just opened meets the invariants (R212). -/
theorem State.openConnection_inv (c : CmdStatus) (s : State) : (s.openConnection.returnStatus c).Inv := by
  constructor <;> simp

/-- CONN_OPEN keeps the invariants. -/
theorem State.connOpen_inv {s : State} (hs : s.Inv) : s.connOpen.Inv := by
  rcases State.connOpen_cases s with ⟨_, he⟩ | ⟨_, _, he⟩ | ⟨_, _, _, he⟩ | ⟨_, _, _, he⟩ <;> rw [he]
  · exact hs.of_bookkeeping (by simp) rfl
  · exact hs.of_bookkeeping (by simp) rfl
  · exact hs.of_bookkeeping (by simp) rfl
  · exact State.openConnection_inv _ _

/-- A CONN_OPEN that completes has run its draws. -/
theorem execConnOpen_next {s t : State} (h : execConnOpen s = .next t) : t = s.connOpen := by
  unfold execConnOpen at h
  split at h <;> cases h
  rfl

/-- A CONN_CLOSE that completes has torn the Connection down (R214). -/
theorem execConnClose_next {s t : State} (h : execConnClose s = .next t) :
    t = (s.returnStatus .ok).teardown .hostClose := by
  unfold execConnClose at h
  split at h
  · cases h
  · split at h <;> cases h <;> rfl

/-- A DISPATCH_DONE that completes on an open Connection was given its verdict while a frame was out (R151). -/
theorem execDispatchDone_next {v : Verdict} {s t : State} (h : execDispatchDone v s = .next t) :
    s.connState = .opened ∧ (∃ f, s.rxPhase = .dispatching f) ∧ t = s.verdict v := by
  unfold execDispatchDone at h
  split at h
  · cases h
  · rename_i ho
    split at h <;> cases h
    exact ⟨not_not.1 ho, ⟨_, ‹_›⟩, rfl⟩

/-- A TX_ENQUEUE that completes was made on an open Connection (R170). -/
theorem execTxEnqueue_next {type flags : Byte} {sidOp : BitVec 32} {payload : List Byte} {s t : State}
    (h : execTxEnqueue type flags sidOp payload s = .next t) :
    s.connState = .opened ∧ t = s.enqueue type flags sidOp payload := by
  unfold execTxEnqueue at h
  split at h <;> cases h
  exact ⟨not_not.1 ‹_›, rfl⟩

/-- The consumer's verdict keeps the invariants (R150). -/
theorem State.verdict_inv {s : State} (hs : s.Inv) (ho : s.connState = .opened) (v : Verdict) :
    (s.verdict v).Inv := by
  cases v with
  | reserved b => exact hs.returnStatus _
  | fail => exact State.teardown_inv (by decide) (by simp)
  | accept =>
    have hrx : (((s.returnStatus .ok).setRxPhase .awaitHdr).setRxArmed true).RxOk :=
      ⟨hs.hdrSize, hs.hdrFilled, hs.hdrCnt, hs.hdrFatal, fun h => absurd rfl h, by rintro f ⟨⟩, by rintro f ⟨⟩⟩
    exact State.inv_of_opened ho (hs.reason_opened ho) (State.returnStatus_statusOk .ok s) hrx
      (by simp [State.RxArmedOk, State.verdict]) ((hs.txOk ho).of_eq rfl rfl rfl)

/-- Every command keeps the invariants. -/
theorem exec_inv {i : Instr} {s t : State} (hs : s.Inv) (h : exec i s = .next t) : t.Inv := by
  cases i with
  | connOpen => rw [execConnOpen_next h]; exact State.connOpen_inv hs
  | connClose => rw [execConnClose_next h]; exact State.teardown_inv (by decide) (by simp)
  | hdrDecode hb => cases h; exact hs.of_bookkeeping (by simp) rfl
  | hdrEncode len type flags sidOp => cases h; exact hs.of_bookkeeping (by simp) rfl
  | rxReady => exact execRxReady_inv hs h
  | dispatchDone v =>
    obtain ⟨ho, _, rfl⟩ := execDispatchDone_next h
    exact State.verdict_inv hs ho v
  | txEnqueue type flags sidOp payload =>
    obtain ⟨ho, rfl⟩ := execTxEnqueue_next h
    exact State.enqueue_inv hs ho type flags sidOp payload
  | txReady => exact execTxReady_inv hs h

/-- Settles O13: the invariants do not look at the port, and every command keeps them. -/
theorem stepKeepsInvariant : Obligations.StepKeepsInvariant := by
  intro s t hs h
  rcases step_cases h with ⟨_, rfl⟩ | ⟨_, rest, _, rfl⟩ | ⟨i, rest, _, hexec⟩
  · exact hs
  · exact (hs.setPort rest).returnStatus _
  · exact exec_inv (hs.setPort rest) hexec

/-- Settles O14: reset holds no frame, no entry and no header byte, and no Connection. -/
theorem resetMeetsInvariant : Obligations.ResetMeetsInvariant := by
  intro p
  have hbuf : (State.resetWith p).rxHdrBuf.filledTo (State.resetWith p).rxHdrCnt.toNat := Buffer.fresh_filled 9
  constructor <;> simp [State.resetWith]
  exact hbuf

/-! ### What a transmit pass leaves alone in any state -/

/-- What a sub-step of the writer can change of the state. What is on the wire stays (R68). -/
def TxGrows (s t : State) : Prop := TxSame s t ∧ s.wireOut <+: t.wireOut

theorem TxGrows.refl (s : State) : TxGrows s s := ⟨.refl s, List.prefix_rfl⟩

theorem TxGrows.trans {s t u : State} (h₁ : TxGrows s t) (h₂ : TxGrows t u) : TxGrows s u :=
  ⟨h₁.1.trans h₂.1, h₁.2.trans h₂.2⟩

theorem TxGrows.afterWrite (s : State) : TxGrows s s.afterWrite := ⟨rfl, List.prefix_rfl⟩

theorem TxGrows.putWire (bs : List Byte) (s : State) : TxGrows s (s.putWire bs) := ⟨rfl, by simp⟩

theorem TxGrows.setHead (e : TxEntry) (s : State) : TxGrows s (s.setHead e) := ⟨rfl, List.prefix_rfl⟩

theorem TxGrows.setTxq (q : List TxEntry) (s : State) : TxGrows s (s.setTxq q) := ⟨rfl, List.prefix_rfl⟩

theorem TxGrows.setTxArmed (b : Bool) (s : State) : TxGrows s (s.setTxArmed b) := ⟨rfl, List.prefix_rfl⟩

/-- How a step of the writer ends from `s`, whatever the queue holds. -/
def TxEnds (s t : State) : Prop := TxGrows s t ∨ ∃ r u, t = u.teardown r ∧ r ≠ .none ∧ TxGrows s u

theorem TxEnds.down {s u : State} (r : TdReason) (hr : r ≠ .none) (h : TxGrows s u) :
    TxEnds s (u.teardown r) := .inr ⟨r, u, rfl, hr, h⟩

theorem TxEnds.after {s u t : State} (hsame : TxGrows s u) (h : TxEnds u t) : TxEnds s t := by
  rcases h with h | ⟨r, v, rfl, hr, h⟩
  · exact .inl (hsame.trans h)
  · exact .down r hr (hsame.trans h)

/-- A sub-step of the writer goes on from, or ends the step in, a state it can reach from `s`. -/
def Flow.TxWithin {α : Type} (s : State) : Flow α → Prop
  | .go _ u  => TxGrows s u
  | .ended o => ∀ t, o = .next t → TxEnds s t

/-- A sub-step that ends the step in a next state. -/
theorem Flow.txWithin_next {α : Type} {s t : State} (h : TxEnds s t) :
    (Flow.ended (.next t) : Flow α).TxWithin s := by
  rintro _ ⟨⟩
  exact h

theorem headerWriteFatal_within (e : TxEntry) (s : State) : (headerWriteFatal e s).TxWithin s := by
  have hw := TxGrows.afterWrite s
  rcases headerWriteFatal_cases e s with ⟨_, h⟩ | ⟨k, _, _, h⟩ | ⟨k, _, _, h⟩ | ⟨_, h⟩ | ⟨_, h⟩ <;> rw [h]
  · exact (hw.trans (.putWire _ _)).trans (.setHead _ _)
  · exact Flow.txWithin_next (.down _ (by decide) hw)
  · exact Flow.txWithin_next (.down _ (by decide) (hw.trans (.putWire _ _)))
  · exact Flow.txWithin_next (.inl (hw.trans (.setTxArmed _ _)))
  · exact Flow.txWithin_next (.down _ (by decide) hw)

theorem headerWriteBuffered_within {e : TxEntry} (he : e.hdrSent.toNat < 9) (s : State) :
    (headerWriteBuffered e s).TxWithin s := by
  have hw := TxGrows.afterWrite s
  rcases headerWriteBuffered_cases e s he with
    ⟨k, _, _, h⟩ | ⟨k, _, _, h⟩ | ⟨k, _, _, h⟩ | ⟨_, h⟩ | ⟨_, h⟩ <;> rw [h]
  · exact (hw.trans (.putWire _ _)).trans (.setHead _ _)
  · exact Flow.txWithin_next (.down _ (by decide) hw)
  · exact Flow.txWithin_next (.inl (((hw.trans (.putWire _ _)).trans (.setHead _ _)).trans (.setTxArmed _ _)))
  · exact Flow.txWithin_next (.inl (hw.trans (.setTxArmed _ _)))
  · exact Flow.txWithin_next (.down _ (by decide) hw)

theorem headerPart_within (e : TxEntry) (s : State) : (headerPart e s).TxWithin s := by
  unfold headerPart
  split
  · exact .refl s
  · split
    · exact headerWriteFatal_within e s
    · exact headerWriteBuffered_within (by omega) s

theorem payloadWrite_within (e : TxEntry) (s : State) : (payloadWrite e s).TxWithin s := by
  have hw := TxGrows.afterWrite s
  simp only [payloadWrite]
  split
  · rintro t ⟨⟩
  · split
    · split
      · exact Flow.txWithin_next (.down _ (by decide) hw)
      · split
        · exact (hw.trans (.putWire _ _)).trans (.setHead _ _)
        · exact Flow.txWithin_next
            (.inl (((hw.trans (.putWire _ _)).trans (.setHead _ _)).trans (.setTxArmed _ _)))
    · exact Flow.txWithin_next (.inl (hw.trans (.setTxArmed _ _)))
    · exact Flow.txWithin_next (.down _ (by decide) hw)

theorem payloadPart_within (e : TxEntry) (s : State) : (payloadPart e s).TxWithin s := by
  unfold payloadPart
  split
  · exact .refl s
  · exact payloadWrite_within e s

/-- What follows a sub-step need only be followed from the states the sub-step can go on from. -/
theorem Flow.andThen_ends {α : Type} {x : Flow α} {k : α → State → Outcome} {s t : State}
    (hx : x.TxWithin s) (h : x.andThen k = .next t) (hk : ∀ a u, k a u = .next t → TxEnds u t) : TxEnds s t := by
  cases x with
  | go a u => exact .after hx (hk a u h)
  | ended o => exact hx t h

/-- A transmit pass on any queue (R180, R190, R191). -/
theorem txPass_ends (q : List TxEntry) : ∀ {s t : State}, txPass q s = .next t → TxEnds s t := by
  induction q with
  | nil => rintro s t ⟨⟩
  | cons e rest ih =>
    intro s t h
    refine Flow.andThen_ends (headerPart_within e s) h fun e₁ s₁ h => ?_
    refine Flow.andThen_ends (payloadPart_within e₁ s₁) h fun _ s₂ h => ?_
    have hq := TxGrows.setTxq rest s₂
    split at h
    · cases h; exact .inl hq
    · split at h
      · cases h; exact .inl (hq.trans (.setTxArmed _ _))
      · exact .after hq (ih h)

/-- A delivered TX_READY (R180). -/
theorem State.deliverTx_ends {s t : State} (h : s.deliverTx = .next t) :
    TxEnds ((s.setTxArmed false).returnStatus .ok) t := txPass_ends s.txq h

/-! ### The codec's results -/

/-- `DEC_OUT` and `ENC_OUT` are unchanged. -/
def CodecSame (s t : State) : Prop := t.decOut = s.decOut ∧ t.encOut = s.encOut

/-- Opening a Connection writes neither result (R120). -/
theorem State.connOpen_codecSame (s : State) : CodecSame s s.connOpen := by
  rcases State.connOpen_cases s with ⟨_, he⟩ | ⟨_, _, he⟩ | ⟨_, _, _, he⟩ | ⟨_, _, _, he⟩ <;> rw [he] <;>
    exact ⟨rfl, rfl⟩

theorem State.enqueue_codecSame (type flags : Byte) (sidOp : BitVec 32) (payload : List Byte) (s : State) :
    CodecSame s (s.enqueue type flags sidOp payload) := by
  rcases State.enqueue_cases type flags sidOp payload s with
    ⟨_, he⟩ | ⟨_, _, he⟩ | ⟨_, _, _, he⟩ | ⟨_, _, _, he⟩ <;> rw [he] <;> exact ⟨rfl, rfl⟩

theorem State.verdict_codecSame (v : Verdict) (s : State) : CodecSame s (s.verdict v) := by
  cases v <;> exact ⟨rfl, rfl⟩

/-- The receiver writes neither result, in a teardown either. -/
theorem RxEnds.codecSame {s t : State} (h : RxEnds s t) : CodecSame s t := by
  rcases h with ⟨hsame, _⟩ | ⟨r, u, rfl, _, hsame⟩ <;>
    (obtain ⟨_, _, _, _, _, _, _, hdec, henc⟩ := hsame.fields; exact ⟨hdec, henc⟩)

/-- The writer writes neither result, in a teardown either. -/
theorem TxEnds.codecSame {s t : State} (h : TxEnds s t) : CodecSame s t := by
  rcases h with ⟨hsame, _⟩ | ⟨r, u, rfl, _, hsame, _⟩ <;>
    (obtain ⟨_, _, _, _, _, _, _, _, hdec, henc, _⟩ := hsame.fields; exact ⟨hdec, henc⟩)

/-- Settles O19: the two codec commands each write their own result, and no other command writes either. -/
theorem codecResultsSurviveOtherCommands : Obligations.CodecResultsSurviveOtherCommands := by
  intro i s t h
  suffices hboth : (∃ hb, i = .hdrDecode hb) ∨ (∃ len type flags sidOp, i = .hdrEncode len type flags sidOp) ∨
      CodecSame s t by
    rcases hboth with ⟨hb, rfl⟩ | ⟨len, type, flags, sidOp, rfl⟩ | ⟨hdec, henc⟩
    · cases h; exact ⟨fun hne => absurd rfl (hne hb), fun _ => rfl⟩
    · cases h; exact ⟨fun _ => rfl, fun hne => absurd rfl (hne len type flags sidOp)⟩
    · exact ⟨fun _ => hdec, fun _ => henc⟩
  cases i with
  | hdrDecode hb => exact .inl ⟨hb, rfl⟩
  | hdrEncode len type flags sidOp => exact .inr (.inl ⟨len, type, flags, sidOp, rfl⟩)
  | connOpen => rw [execConnOpen_next h]; exact .inr (.inr s.connOpen_codecSame)
  | connClose => rw [execConnClose_next h]; exact .inr (.inr ⟨rfl, rfl⟩)
  | rxReady => exact .inr (.inr (State.deliverRx_ends (execRxReady_next h).2).codecSame)
  | dispatchDone v =>
    obtain ⟨_, _, rfl⟩ := execDispatchDone_next h
    exact .inr (.inr (s.verdict_codecSame v))
  | txEnqueue type flags sidOp payload =>
    obtain ⟨_, rfl⟩ := execTxEnqueue_next h
    exact .inr (.inr (s.enqueue_codecSame type flags sidOp payload))
  | txReady =>
    obtain ⟨_, _, rfl | h⟩ := execTxReady_next h
    · exact .inr (.inr ⟨rfl, rfl⟩)
    · exact .inr (.inr (State.deliverTx_ends h).codecSame)

end Sys2Proof.Machine

/-! Buffer accesses (20_memory.md R62, 60_exceptions.md R277): where `MemRead` and `MemWrite` fail and what they
give, for every buffer; and that no step of a block that meets its invariants makes one that fails. -/

namespace Sys2Proof.Machine

/-! ### Runs of bytes in a memory -/

/-- A run of `n + 1` bytes is its first byte and the run of `n` behind it. -/
theorem Memory.loadRange_succ (m : Memory) (off n : Nat) :
    m.loadRange off (n + 1) = (m.load off).bind fun b => (m.loadRange (off + 1) n).map (b :: ·) := by
  cases hb : m.load off <;> cases hbs : m.loadRange (off + 1) n <;> simp [Memory.loadRange, hb, hbs]

/-- A run of bytes reads as `bs` exactly if `bs` are the bytes that stand there. -/
theorem Memory.loadRange_eq_some (m : Memory) (n : Nat) : ∀ (off : Nat) (bs : List Byte),
    m.loadRange off n = some bs ↔ bs.length = n ∧ ∀ k < n, m.load (off + k) = bs[k]? := by
  induction n with
  | zero => intro off bs; simp [Memory.loadRange]
  | succ n ih =>
    intro off bs
    cases bs with
    | nil => simp [Memory.loadRange_succ, Option.bind_eq_some_iff]
    | cons b bs =>
      rw [Nat.forall_lt_succ_left]
      simp [Memory.loadRange_succ, Option.bind_eq_some_iff, ih, Nat.add_assoc, Nat.add_comm 1, and_left_comm]

/-- A run of bytes cannot be read exactly if one of them has not been written. -/
theorem Memory.loadRange_eq_none (m : Memory) (n : Nat) : ∀ off : Nat,
    m.loadRange off n = none ↔ ∃ k < n, m.load (off + k) = none := by
  induction n with
  | zero => intro off; simp [Memory.loadRange]
  | succ n ih =>
    intro off
    have hsplit : m.loadRange off (n + 1) = none ↔ m.load off = none ∨ m.loadRange (off + 1) n = none := by
      cases hb : m.load off <;> simp [Memory.loadRange_succ, hb]
    rw [hsplit, ih, Nat.exists_lt_succ_left]
    simp [Nat.add_assoc, Nat.add_comm 1]

/-- The bytes of a run that has been written stand at its offsets. -/
theorem Memory.load_storeRange_inside (bs : List Byte) : ∀ (m : Memory) (off k : Nat), k < bs.length →
    (m.storeRange off bs).load (off + k) = bs[k]? := by
  induction bs with
  | nil => intro m off k hk; exact absurd hk (Nat.not_lt_zero k)
  | cons b bs ih =>
    intro m off k hk
    rw [Memory.storeRange]
    cases k with
    | zero => rw [Memory.load_storeRange_other _ _ _ _ (by omega)]; simp
    | succ k =>
      rw [show off + (k + 1) = off + 1 + k by omega, ih _ _ _ (by simpa using hk), List.getElem?_cons_succ]

/-- A run of bytes is read back after it has been written. -/
theorem Memory.loadRange_storeRange (m : Memory) (off : Nat) (bs : List Byte) :
    (m.storeRange off bs).loadRange off bs.length = some bs :=
  (Memory.loadRange_eq_some _ _ _ _).2 ⟨rfl, Memory.load_storeRange_inside bs m off⟩

/-! ### `MemRead` and `MemWrite` of any buffer -/

/-- `MemRead` fails exactly if it leaves the buffer or meets a byte never written (R62, R44). -/
theorem Buffer.read_eq_none (b : Buffer) (off n : Nat) :
    b.read off n = none ↔ b.size < off + n ∨ ∃ k < n, b.mem.load (off + k) = none := by
  rw [← Memory.loadRange_eq_none, Buffer.read]
  split
  · simp [Nat.not_lt.2 ‹_›]
  · simp [Nat.lt_of_not_le ‹_›]

/-- `MemRead` gives `bs` exactly if it stays within the buffer and `bs` are the bytes that stand there. -/
theorem Buffer.read_eq_some (b : Buffer) (off n : Nat) (bs : List Byte) :
    b.read off n = some bs ↔
      off + n ≤ b.size ∧ bs.length = n ∧ ∀ k < n, b.mem.load (off + k) = bs[k]? := by
  rw [← Memory.loadRange_eq_some, Buffer.read]
  split <;> simp [*]

/-- `MemWrite` gives `b'` exactly if it stays within the buffer and `b'` is the buffer with the bytes stored. -/
theorem Buffer.write_eq_some (b b' : Buffer) (off : Nat) (bs : List Byte) :
    b.write off bs = some b' ↔ off + bs.length ≤ b.size ∧ b' = ⟨b.size, b.mem.storeRange off bs⟩ := by
  rw [Buffer.write]
  split <;> simp [*, eq_comm]

/-- `MemWrite` fails exactly if it leaves the buffer (R62). -/
theorem Buffer.write_eq_none (b : Buffer) (off : Nat) (bs : List Byte) :
    b.write off bs = none ↔ b.size < off + bs.length := by
  simp [Buffer.write]

/-- What has been written is read back. -/
theorem Buffer.read_write {b b' : Buffer} {off : Nat} {bs : List Byte} (h : b.write off bs = some b') :
    b'.read off bs.length = some bs := by
  obtain ⟨hin, rfl⟩ := (Buffer.write_eq_some b b' off bs).1 h
  exact (if_pos hin).trans (Memory.loadRange_storeRange b.mem off bs)

/-- `MemWrite` leaves every byte outside its range alone. -/
theorem Buffer.load_write_other {b b' : Buffer} {off k : Nat} {bs : List Byte} (h : b.write off bs = some b')
    (hk : k < off ∨ off + bs.length ≤ k) : b'.mem.load k = b.mem.load k := by
  obtain ⟨_, rfl⟩ := (Buffer.write_eq_some b b' off bs).1 h
  exact Memory.load_storeRange_other bs b.mem off k hk

/-- Settles O53: reads and writes are checked against the buffer's size once, and then go byte by byte. -/
theorem bufferAccessObeysItsRange : Obligations.BufferAccessObeysItsRange := by
  intro b off n bs
  refine ⟨b.read_eq_none off n, fun read h => ((b.read_eq_some off n read).1 h).2, b.write_eq_none off bs,
    fun b' h => ⟨?_, Buffer.read_write h, fun k hk => Buffer.load_write_other h hk,
      fun hwf => (Buffer.write_wf h hwf).1⟩⟩
  obtain ⟨_, rfl⟩ := (Buffer.write_eq_some b b' off bs).1 h
  rfl

/-! ### Under the invariants a delivered notification completes -/

/-- Allocating a receive frame answers a next state, a teardown's among them (R137, R138). -/
theorem allocateRx_completes (h : Header) (s : State) : ∃ t, allocateRx h s = .next t := by
  rcases allocateRx_cases h s with ⟨_, he⟩ | ⟨_, _, he⟩ | ⟨_, _, _, he⟩ | ⟨_, _, _, he⟩ <;> exact ⟨_, he⟩

/-- A header whose last bytes have been stored is decoded without a fault (R135). -/
theorem headerComplete_completes {s : State} {buf : Buffer} {n : BitVec 4} (hsize : buf.size = 9)
    (hfill : buf.filledTo 9) : ∃ t, headerComplete (s.setRxHdr buf n) = .next t := by
  obtain ⟨hb, _, he⟩ := headerComplete_filled (s := s.setRxHdr buf n) hsize hfill
  rw [he]
  exact allocateRx_completes _ _

/-- A header read under FATAL stores nine bytes in an empty nine-byte buffer (R132). -/
theorem headerStepFatal_completes {s : State} (hs : s.RxOk) (hm : s.params.rxHdrMode = .fatal) :
    ∃ t, headerStepFatal s = .next t := by
  have hcnt : s.rxHdrCnt.toNat = 0 := by rw [hs.hdrFatal hm]; rfl
  unfold headerStepFatal
  split
  · rename_i b bs _
    split
    · exact ⟨_, rfl⟩
    · split
      · exact ⟨_, rfl⟩
      · have hlen : (b :: bs).length = 9 := by omega
        obtain ⟨buf, hw, hsize, hfill, _⟩ :=
          rxHdrBuf_write hs.hdrSize hs.hdrFilled (bs := b :: bs) (by omega)
        rw [hcnt] at hw hfill
        rw [hlen] at hfill
        rw [hw]
        exact headerComplete_completes hsize hfill
  all_goals exact ⟨_, rfl⟩

/-- A header read under BUFFERED stores behind the bytes held no more than are missing (R133, R134). -/
theorem headerStepBuffered_completes {s : State} (hs : s.RxOk) : ∃ t, headerStepBuffered s = .next t := by
  have hcnt := hs.hdrCnt
  unfold headerStepBuffered
  split
  · rename_i b bs _
    split
    · exact ⟨_, rfl⟩
    · obtain ⟨buf, hw, hsize, hfill, _⟩ :=
        rxHdrBuf_write hs.hdrSize hs.hdrFilled (bs := b :: bs) (by omega)
      rw [hw]
      dsimp only
      split
      · rename_i h9
        rw [h9] at hfill
        exact headerComplete_completes hsize hfill
      · exact ⟨_, rfl⟩
  all_goals exact ⟨_, rfl⟩

/-- A payload read stores behind the bytes held no more than are missing, and a complete frame has all its bytes
(R139 to R143). -/
theorem payloadStep_completes {f : RxFrame} (hf : f.Ok) (s : State) : ∃ t, payloadStep f s = .next t := by
  have hx := hf.xfer
  unfold payloadStep
  split
  · rename_i b bs _
    split
    · exact ⟨_, rfl⟩
    · obtain ⟨f', happ, hf', _⟩ := RxFrame.append_ok (bs := b :: bs) hf (by omega)
      rw [happ]
      dsimp only
      split
      · exact ⟨_, dispatchFrame_complete hf' ‹_› _⟩
      · exact ⟨_, rfl⟩
  all_goals exact ⟨_, rfl⟩

/-- A delivered RX_READY completes (R130). -/
theorem State.deliverRx_completes {s : State} (hs : s.RxOk) : ∃ t, s.deliverRx = .next t := by
  have hs' : ((s.setRxArmed false).returnStatus .ok).RxOk := hs.of_eq rfl rfl rfl rfl rfl
  unfold State.deliverRx
  cases hp : s.rxPhase with
  | awaitHdr =>
    cases hm : s.params.rxHdrMode with
    | fatal => exact headerStepFatal_completes hs' hm
    | buffered => exact headerStepBuffered_completes hs'
  | awaitPayload f => exact payloadStep_completes (hs.waiting f hp).1 _
  | dispatching f => exact ⟨_, rfl⟩

/-- A TX_READY delivered to an armed writer has a head entry and completes (R54, R180). -/
theorem State.deliverTx_completes {s : State} (hs : s.TxOk) (ha : s.txArmed = true) :
    ∃ t, s.deliverTx = .next t := by
  obtain ⟨t, ht, _⟩ := txPass_move s.txq ((s.setTxArmed false).returnStatus .ok) rfl (hs.armed.1 ha) hs.queue rfl
  exact ⟨t, ht⟩

/-! ### The faults left are broken contracts -/

/-- RX_READY faults only where it is not delivered (R131). -/
theorem execRxReady_fault {s : State} {r : Fault} (hs : s.Inv) (h : execRxReady s = .fault r) :
    r = .noConn ∨ r = .notArmed := by
  obtain ⟨t, ht⟩ := State.deliverRx_completes hs.rxOk
  unfold execRxReady at h
  split at h
  · cases h; exact .inl rfl
  · split at h
    · cases h; exact .inr rfl
    · cases h.symm.trans ht

/-- TX_READY faults only where it is neither held nor delivered (R181). -/
theorem execTxReady_fault {s : State} {r : Fault} (hs : s.Inv) (h : execTxReady s = .fault r) :
    r = .noConn ∨ r = .notArmed := by
  unfold execTxReady at h
  split at h
  · cases h; exact .inl rfl
  · rename_i ho
    split at h
    · cases h; exact .inr rfl
    · rename_i ha
      obtain ⟨t, ht⟩ := State.deliverTx_completes (hs.txOk (not_not.1 ho)) (by simpa using ha)
      rw [ht] at h
      split at h <;> cases h

/-- CONN_OPEN faults only on an open Connection (R210). -/
theorem execConnOpen_fault {s : State} {r : Fault} (h : execConnOpen s = .fault r) : r = .reopen := by
  unfold execConnOpen at h
  split at h <;> cases h
  rfl

/-- CONN_CLOSE faults only on no Connection or while a frame is out (R215). -/
theorem execConnClose_fault {s : State} {r : Fault} (h : execConnClose s = .fault r) :
    r = .noConn ∨ r = .closeInDispatch := by
  unfold execConnClose at h
  split at h
  · cases h; exact .inl rfl
  · split at h <;> cases h
    exact .inr rfl

/-- DISPATCH_DONE faults only on no Connection or while no frame is out (R151). -/
theorem execDispatchDone_fault {v : Verdict} {s : State} {r : Fault} (h : execDispatchDone v s = .fault r) :
    r = .noConn ∨ r = .notDispatching := by
  unfold execDispatchDone at h
  split at h
  · cases h; exact .inl rfl
  · split at h <;> cases h <;> exact .inr rfl

/-- TX_ENQUEUE faults only on no Connection (R170). -/
theorem execTxEnqueue_fault {type flags : Byte} {sidOp : BitVec 32} {payload : List Byte} {s : State} {r : Fault}
    (h : execTxEnqueue type flags sidOp payload s = .fault r) : r = .noConn := by
  unfold execTxEnqueue at h
  split at h <;> cases h
  rfl

/-- Under the invariants a command faults only where its contract is broken. -/
theorem exec_fault_isModelError {i : Instr} {s : State} {r : Fault} (hs : s.Inv) (h : exec i s = .fault r) :
    r.isModelError = false := by
  cases i with
  | connOpen => rw [execConnOpen_fault h]; rfl
  | connClose => rcases execConnClose_fault h with rfl | rfl <;> rfl
  | hdrDecode hb => cases h
  | hdrEncode len type flags sidOp => cases h
  | rxReady => rcases execRxReady_fault hs h with rfl | rfl <;> rfl
  | dispatchDone v => rcases execDispatchDone_fault h with rfl | rfl <;> rfl
  | txEnqueue type flags sidOp payload => rw [execTxEnqueue_fault h]; rfl
  | txReady => rcases execTxReady_fault hs h with rfl | rfl <;> rfl

/-- Settles O15: a step that faults ran a command, and under the invariants a command's accesses stay within the
written part of their buffers and an armed writer has a head entry. -/
theorem invariantRulesOutModelErrors : Obligations.InvariantRulesOutModelErrors := by
  intro s r hs h
  obtain ⟨i, rest, _, hexec⟩ := step_fault h
  exact exec_fault_isModelError (hs.setPort rest) hexec

end Sys2Proof.Machine

/-! The command port's encoding (30_encoding.md): big-endian numbers and their bytes, the inverse pair of decoder and
encoder, and what a step does with what it decodes. Each format's reader is inverted once, as `Reads`; that a decoded
command's bytes are its encoding (O9) is put together from these, one format per opcode. -/

namespace Sys2Proof

/-! ### Big-endian numbers (00_scope.md R7, R8) -/

/-- Appending puts the left word above the right one's bits. -/
theorem toNat_append_eq_add {m n : Nat} (x : BitVec m) (y : BitVec n) :
    (x ++ y).toNat = x.toNat * 2 ^ n + y.toNat := by
  rw [BitVec.toNat_append, ← Nat.shiftLeft_add_eq_or_of_lt y.isLt, Nat.shiftLeft_eq]

theorem toNat_be24 (a b c : Byte) : (be24 a b c).toNat = a.toNat * 65536 + b.toNat * 256 + c.toNat := by
  simp only [be24, toNat_append_eq_add]
  omega

theorem toNat_be32 (a b c d : Byte) :
    (be32 a b c d).toNat = a.toNat * 16777216 + b.toNat * 65536 + c.toNat * 256 + d.toNat := by
  simp only [be32, toNat_append_eq_add]
  omega

/-- A 24-bit number is the number its bytes spell. -/
@[simp] theorem be24_extract (v : BitVec 24) :
    be24 (v.extractLsb' 16 8) (v.extractLsb' 8 8) (v.extractLsb' 0 8) = v := by
  apply BitVec.eq_of_toNat_eq
  simp only [toNat_be24, BitVec.extractLsb'_toNat, Nat.shiftRight_eq_div_pow]
  omega

/-- A 32-bit number is the number its bytes spell. -/
@[simp] theorem be32_extract (v : BitVec 32) :
    be32 (v.extractLsb' 24 8) (v.extractLsb' 16 8) (v.extractLsb' 8 8) (v.extractLsb' 0 8) = v := by
  apply BitVec.eq_of_toNat_eq
  simp only [toNat_be32, BitVec.extractLsb'_toNat, Nat.shiftRight_eq_div_pow]
  omega

/-- Three bytes are the bytes of the number they spell. -/
@[simp] theorem be24Bytes_be24 (a b c : Byte) : be24Bytes (be24 a b c) = [a, b, c] := by
  simp only [be24Bytes, List.cons.injEq, ← BitVec.toNat_inj, BitVec.extractLsb'_toNat, toNat_be24,
    Nat.shiftRight_eq_div_pow, and_true]
  omega

/-- Four bytes are the bytes of the number they spell. -/
@[simp] theorem be32Bytes_be32 (a b c d : Byte) : be32Bytes (be32 a b c d) = [a, b, c, d] := by
  simp only [be32Bytes, List.cons.injEq, ← BitVec.toNat_inj, BitVec.extractLsb'_toNat, toNat_be32,
    Nat.shiftRight_eq_div_pow, and_true]
  omega

/-- Settles O1: a word appended of bytes has the sum of their values, each at its place; the seven low bits of
`b5` are its value modulo 128. -/
theorem headerFieldsAreBigEndian : Obligations.HeaderFieldsAreBigEndian := by
  intro h
  refine ⟨toNat_be24 h.b0 h.b1 h.b2, ?_⟩
  have hlow : (h.b5.extractLsb' 0 7).toNat = h.b5.toNat % 128 := by simp
  simp only [Machine.decode9, toNat_append_eq_add, hlow]
  omega

/-! ### Verdict bytes (R92, R98) -/

@[simp] theorem Verdict.toByte_ofByte (b : Byte) : (Verdict.ofByte b).toByte = b := by
  unfold Verdict.ofByte
  split_ifs with haccept hfail
  · exact haccept.symm
  · exact hfail.symm
  · rfl

/-- A reserved verdict comes from a byte that is neither 0x00 nor 0x01. -/
@[simp] theorem Verdict.ofByte_wellFormed (b : Byte) : (Verdict.ofByte b).wellFormed = true := by
  unfold Verdict.ofByte
  split_ifs with haccept hfail
  · rfl
  · rfl
  · simp only [Verdict.wellFormed, decide_eq_true_eq]
    bv_omega

theorem Verdict.ofByte_toByte {v : Verdict} (h : v.wellFormed = true) : Verdict.ofByte v.toByte = v := by
  cases v with
  | accept => rfl
  | fail => rfl
  | reserved b =>
    have hb : 2 ≤ b.toNat := by simpa [Verdict.wellFormed] using h
    have haccept : b ≠ 0x00#8 := by bv_omega
    have hfail : b ≠ 0x01#8 := by bv_omega
    simp [Verdict.toByte, Verdict.ofByte, haccept, hfail]

/-! ### The decoder gives back what the encoder wrote (R90 to R96) -/

/-- Format Q: a payload whose length fits the field P is read back to its end and no further. -/
theorem decodeQ_operandBytes (t f : Byte) (sidOp : BitVec 32) (payload rest : List Byte)
    (hlen : payload.length < 2 ^ 32) :
    decodeQ (operandBytes (.txEnqueue t f sidOp payload) ++ rest) =
      .instr (.txEnqueue t f sidOp payload) rest := by
  have hP : payload.length % 4294967296 = payload.length := Nat.mod_eq_of_lt hlen
  simp [operandBytes, be32Bytes, decodeQ, hP]

theorem decode_encode_append {i : Instr} (h : i.wellFormed = true) (rest : List Byte) :
    decode (encode i ++ rest) = .instr i rest := by
  cases i with
  | connOpen => rfl
  | connClose => rfl
  | hdrDecode _ => rfl
  | hdrEncode len t f sidOp =>
    change decodeH (operandBytes (.hdrEncode len t f sidOp) ++ rest) = _
    simp [operandBytes, be24Bytes, be32Bytes, decodeH]
  | rxReady => rfl
  | dispatchDone v =>
    change Decoded.instr (.dispatchDone (Verdict.ofByte v.toByte)) rest = _
    rw [Verdict.ofByte_toByte h]
  | txEnqueue t f sidOp payload =>
    exact decodeQ_operandBytes t f sidOp payload rest (by simpa [Instr.wellFormed] using h)
  | txReady => rfl

/-- Settles O8, by cases on the command: each format's reader undoes its operand bytes. -/
theorem encodedCommandsDecode : Obligations.EncodedCommandsDecode :=
  fun _ rest h => decode_encode_append h rest

/-! ### What the decoder reads is an encoding (R90 to R96) -/

/-- A reader of the operand bytes behind opcode `op` has found `i` at the front of `bs`, with `rest` behind it. -/
structure Reads (op : Byte) (bs : List Byte) (i : Instr) (rest : List Byte) : Prop where
  opcode_eq  : opcode i = op
  wellFormed : i.wellFormed = true
  operands   : bs = operandBytes i ++ rest

theorem decodeV_reads {bs rest : List Byte} {i : Instr} (h : decodeV bs = .instr i rest) :
    Reads 0x21#8 bs i rest := by
  unfold decodeV at h
  split at h
  · cases h
    exact ⟨rfl, Verdict.ofByte_wellFormed _, by simp [operandBytes]⟩
  · cases h

theorem decodeD_reads {bs rest : List Byte} {i : Instr} (h : decodeD bs = .instr i rest) :
    Reads 0x10#8 bs i rest := by
  unfold decodeD at h
  split at h
  · cases h
    exact ⟨rfl, rfl, rfl⟩
  · cases h

theorem decodeH_reads {bs rest : List Byte} {i : Instr} (h : decodeH bs = .instr i rest) :
    Reads 0x11#8 bs i rest := by
  unfold decodeH at h
  split at h
  · cases h
    exact ⟨rfl, rfl, by simp [operandBytes]⟩
  · cases h

/-- The payload taken has the length P, so encoding it writes the same P again. -/
theorem decodeQ_reads {bs rest : List Byte} {i : Instr} (h : decodeQ bs = .instr i rest) :
    Reads 0x30#8 bs i rest := by
  unfold decodeQ at h
  split at h
  next t f s3 s2 s1 s0 p3 p2 p1 p0 tail =>
    split at h
    · cases h
    · next hwhole =>
      cases h
      have hlen : (tail.take (be32 p3 p2 p1 p0).toNat).length = (be32 p3 p2 p1 p0).toNat := by
        rw [List.length_take]
        omega
      refine ⟨rfl, ?_, ?_⟩
      · simp only [Instr.wellFormed, hlen, decide_eq_true_eq]
        exact (be32 p3 p2 p1 p0).isLt
      · simp only [operandBytes, hlen, BitVec.ofNat_toNat, BitVec.setWidth_eq, be32Bytes_be32]
        simp
  · cases h

/-- The opcode map, inverted: a command that `decode` gives is one that its opcode's format reads. -/
theorem decode_cons_reads {op : Byte} {bs rest : List Byte} {i : Instr}
    (h : decode (op :: bs) = .instr i rest) : Reads op bs i rest := by
  simp only [decode] at h
  split_ifs at h with h₁ h₂ h₃ h₄ h₅ h₆ h₇ h₈
  · cases h; exact ⟨h₁.symm, rfl, rfl⟩
  · cases h; exact ⟨h₂.symm, rfl, rfl⟩
  · exact h₃ ▸ decodeD_reads h
  · exact h₄ ▸ decodeH_reads h
  · cases h; exact ⟨h₅.symm, rfl, rfl⟩
  · exact h₆ ▸ decodeV_reads h
  · exact h₇ ▸ decodeQ_reads h
  · cases h; exact ⟨h₈.symm, rfl, rfl⟩

/-- The port's commands are exactly the encodings of the well-formed terms. -/
theorem decode_eq_instr_iff {bs rest : List Byte} {i : Instr} :
    decode bs = .instr i rest ↔ i.wellFormed = true ∧ bs = encode i ++ rest := by
  constructor
  · intro h
    cases bs with
    | nil => cases h
    | cons op tail =>
      obtain ⟨rfl, hwf, rfl⟩ := decode_cons_reads h
      exact ⟨hwf, rfl⟩
  · rintro ⟨hwf, rfl⟩
    exact decode_encode_append hwf rest

/-- The opcode table's lengths (R96), one lemma of `Laws.EncodeLength` for each command. -/
theorem length_encode (i : Instr) : (encode i).length = commandLength i := by
  cases i with
  | connOpen => exact Laws.EncodeLength.connOpen.2
  | connClose => exact Laws.EncodeLength.connClose.2
  | hdrDecode h => exact (Laws.EncodeLength.hdrDecode h).2
  | hdrEncode len t f sidOp => exact (Laws.EncodeLength.hdrEncode len t f sidOp).2
  | rxReady => exact Laws.EncodeLength.rxReady.2
  | dispatchDone v => exact (Laws.EncodeLength.dispatchDone v).2
  | txEnqueue t f sidOp payload => exact (Laws.EncodeLength.txEnqueue t f sidOp payload).2
  | txReady => exact Laws.EncodeLength.txReady.2

/-- Settles O9: every format's reader takes exactly the operand bytes of what it gives. -/
theorem decodedCommandsEncodeBack : Obligations.DecodedCommandsEncodeBack := by
  intro bs i rest h
  obtain ⟨hwf, hbs⟩ := decode_eq_instr_iff.mp h
  exact ⟨hwf, hbs, length_encode i⟩

/-- Settles O10, by running the decoder on the eight byte sequences. -/
theorem sampleEncodingsDecode : Obligations.SampleEncodingsDecode := by
  unfold Obligations.SampleEncodingsDecode
  decide

/-! ### What a step does with what it decodes (R90, R97; 60_exceptions.md R292) -/

/-- An opcode outside the map of R96 is taken alone. -/
theorem decode_of_reserved {op : Byte} (rest : List Byte)
    (h : op ∉ [0x01#8, 0x02#8, 0x10#8, 0x11#8, 0x20#8, 0x21#8, 0x30#8, 0x31#8]) :
    decode (op :: rest) = .reserved op rest := by
  simp only [List.mem_cons, List.not_mem_nil, or_false, not_or] at h
  obtain ⟨h₁, h₂, h₃, h₄, h₅, h₆, h₇, h₈⟩ := h
  simp [decode, h₁, h₂, h₃, h₄, h₅, h₆, h₇, h₈]

end Sys2Proof

namespace Sys2Proof.Machine

theorem step_of_instr {s : State} {i : Instr} {rest : List Byte} (h : decode s.port = .instr i rest) :
    step s = exec i (s.setPort rest) := by
  simp [step, h]

theorem step_of_reserved {s : State} {op : Byte} {rest : List Byte} (h : decode s.port = .reserved op rest) :
    step s = .next ((s.setPort rest).returnStatus .errIllegal) := by
  simp [step, h, execReserved]

theorem step_of_incomplete {s : State} (h : decode s.port = .incomplete) : step s = .next s := by
  simp [step, h]

/-- Settles O11: no format of the map takes a reserved opcode, and the step returns ERR_ILLEGAL for it. -/
theorem reservedOpcodesAreIllegal : Obligations.ReservedOpcodesAreIllegal := by
  intro s op rest hport hop
  have hdecode : decode s.port = .reserved op rest := by rw [hport, decode_of_reserved rest hop]
  exact step_of_reserved hdecode

/-- Settles O12: the two cases of a step that is not a reserved opcode's. -/
theorem stepRunsDecodedCommand : Obligations.StepRunsDecodedCommand :=
  fun _ => ⟨fun _ _ h => step_of_instr h, step_of_incomplete⟩

end Sys2Proof.Machine

/-! The frame header codec (40_codec.md) and the commands that complete. Both round trips are proved first; that the
codec forgets the reserved bit, and nothing else, follows from them. -/

namespace Sys2Proof.Machine

/-! ### Stream ids (R117; 30_encoding.md R85) -/

theorem toNat_sidOfOperand (sidOp : BitVec 32) : (sidOfOperand sidOp).toNat = sidOp.toNat % 2 ^ 31 := by
  simp [sidOfOperand]

@[simp] theorem toNat_wireSid (sid : BitVec 31) : (wireSid sid).toNat = sid.toNat := by
  rw [wireSid, toNat_append_eq_add, BitVec.toNat_zero, Nat.zero_mul, Nat.zero_add]

@[simp] theorem sidOfOperand_wireSid (sid : BitVec 31) : sidOfOperand (wireSid sid) = sid := by
  apply BitVec.eq_of_toNat_eq
  rw [toNat_sidOfOperand, toNat_wireSid, Nat.mod_eq_of_lt sid.isLt]

/-- A wire word's top byte keeps all of its bits when its top bit is replaced by 0. -/
theorem wireSid_topByte (sid : BitVec 31) :
    0#1 ++ (wireSid sid).extractLsb' 24 7 = (wireSid sid).extractLsb' 24 8 := by
  apply BitVec.eq_of_toNat_eq
  simp only [toNat_append_eq_add, BitVec.toNat_zero, BitVec.extractLsb'_toNat, toNat_wireSid,
    Nat.shiftRight_eq_div_pow]
  omega

/-- Below 2^31 bit 31 is 0, so dropping it loses nothing. -/
theorem sidOfOperand_injOn {sidOp sidOp' : BitVec 32} (hlt : sidOp.toNat < 2 ^ 31) (hlt' : sidOp'.toNat < 2 ^ 31)
    (h : sidOfOperand sidOp = sidOfOperand sidOp') : sidOp = sidOp' := by
  apply BitVec.eq_of_toNat_eq
  rw [← Nat.mod_eq_of_lt hlt, ← Nat.mod_eq_of_lt hlt', ← toNat_sidOfOperand, ← toNat_sidOfOperand, h]

/-! ### The seven low bits of byte 5 (R113) -/

@[simp] theorem low7_or_reserved (b : Byte) : (b ||| 0x80#8).extractLsb' 0 7 = b.extractLsb' 0 7 := by
  have hmask : (0x80#8).extractLsb' 0 7 = 0#7 := rfl
  rw [BitVec.extractLsb'_or, hmask, BitVec.or_zero]

@[simp] theorem low7_clear_reserved (b : Byte) : (b &&& 0x7F#8).extractLsb' 0 7 = b.extractLsb' 0 7 := by
  have hmask : (0x7F#8).extractLsb' 0 7 = BitVec.allOnes 7 := rfl
  rw [BitVec.extractLsb'_and, hmask, BitVec.and_allOnes]

theorem low7_eq_zero_iff (b : Byte) : b.extractLsb' 0 7 = 0#7 ↔ b = 0x00#8 ∨ b = 0x80#8 := by
  simp only [← BitVec.toNat_inj, BitVec.extractLsb'_toNat, BitVec.toNat_ofNat, Nat.shiftRight_zero]
  omega

/-- Bytes with the same seven low bits are equal or differ in the reserved bit alone: their difference is 0x00 or
0x80. -/
theorem low7_eq_iff (a b : Byte) : b.extractLsb' 0 7 = a.extractLsb' 0 7 ↔ b = a ∨ b = a ^^^ 0x80#8 := by
  have hdiff : b.extractLsb' 0 7 = a.extractLsb' 0 7 ↔ (a ^^^ b).extractLsb' 0 7 = 0#7 := by
    rw [BitVec.extractLsb'_xor, BitVec.xor_eq_zero_iff, eq_comm]
  have hflip : a ^^^ b = 0x80#8 ↔ b = a ^^^ 0x80#8 := by
    rw [← BitVec.xor_right_inj a, ← BitVec.xor_assoc, BitVec.xor_self, BitVec.zero_xor]
  rw [hdiff, low7_eq_zero_iff, BitVec.xor_eq_zero_iff, hflip, eq_comm (a := a)]

/-! ### The round trips (R118) -/

/-- Decoding an encoded header gives back the operand without bit 31 of `sid_op`. -/
theorem decode9_encode9 (len : BitVec 24) (type flags : Byte) (sidOp : BitVec 32) :
    decode9 (encode9 len type flags sidOp) = ⟨len, type, flags, sidOfOperand sidOp⟩ := by
  have hsid : (decode9 (encode9 len type flags sidOp)).sid = sidOfOperand sidOp := by
    apply BitVec.eq_of_toNat_eq
    simp only [decode9, encode9, toNat_append_eq_add, toNat_sidOfOperand, BitVec.extractLsb'_toNat,
      Nat.shiftRight_eq_div_pow]
    omega
  exact (Header.mk.injEq ..).mpr ⟨be24_extract len, rfl, rfl, hsid⟩

/-- Encoding a decoded header gives back its bytes with the reserved bit cleared. -/
theorem encode9_decode9 (h : HeaderBytes) :
    encode9 (decode9 h).len (decode9 h).type (decode9 h).flags (wireSid (decode9 h).sid) =
      { h with b5 := h.b5 &&& 0x7F#8 } := by
  have hlen : be24Bytes (decode9 h).len = [h.b0, h.b1, h.b2] := be24Bytes_be24 h.b0 h.b1 h.b2
  have hclear : (h.b5 &&& 0x7F#8).toNat = h.b5.toNat % 2 ^ 7 := Nat.and_two_pow_sub_one_eq_mod h.b5.toNat 7
  have hsid : be32Bytes (wireSid (decode9 h).sid) = [h.b5 &&& 0x7F#8, h.b6, h.b7, h.b8] := by
    rw [← be32Bytes_be32]
    congr 1
    apply BitVec.eq_of_toNat_eq
    simp only [toNat_wireSid, toNat_be32, hclear, (headerFieldsAreBigEndian h).2]
    omega
  simp only [be24Bytes, be32Bytes, List.cons.injEq, and_true] at hlen hsid
  obtain ⟨hb0, hb1, hb2⟩ := hlen
  obtain ⟨hb5, hb6, hb7, hb8⟩ := hsid
  simp only [encode9, wireSid_topByte, hb0, hb1, hb2, hb5, hb6, hb7, hb8]
  rfl

/-- Settles O4: the second round trip, and the first of a 31-bit stream id, of which dropping bit 31 of the wire
word loses nothing. -/
theorem codecRoundTrips : Obligations.CodecRoundTrips := by
  refine ⟨fun len type flags sid => ?_, encode9_decode9⟩
  rw [decode9_encode9, sidOfOperand_wireSid]

/-! ### What the decoder forgets (R113, R119) -/

/-- The decoder reads the seven low bits of byte 5 only. -/
theorem decode9_setByte5 {h : HeaderBytes} {b : Byte} (hb : b.extractLsb' 0 7 = h.b5.extractLsb' 0 7) :
    decode9 { h with b5 := b } = decode9 h := by
  simp only [decode9, hb]

/-- Settles O2: setting or clearing the reserved bit leaves the seven low bits of byte 5 alone. -/
theorem decodeIgnoresReservedBit : Obligations.DecodeIgnoresReservedBit :=
  fun h => ⟨decode9_setByte5 (low7_or_reserved h.b5), decode9_setByte5 (low7_clear_reserved h.b5)⟩

/-- Headers that decode alike agree but for the reserved bit: their encodings back are equal. -/
theorem decode9_eq_iff {h h' : HeaderBytes} :
    decode9 h' = decode9 h ↔ h' = h ∨ h' = { h with b5 := h.b5 ^^^ 0x80#8 } := by
  constructor
  · intro heq
    have hback : { h' with b5 := h'.b5 &&& 0x7F#8 } = { h with b5 := h.b5 &&& 0x7F#8 } := by
      rw [← encode9_decode9 h', ← encode9_decode9 h, heq]
    have hlow : h'.b5.extractLsb' 0 7 = h.b5.extractLsb' 0 7 := by
      have hb5 : h'.b5 &&& 0x7F#8 = h.b5 &&& 0x7F#8 := congrArg HeaderBytes.b5 hback
      rw [← low7_clear_reserved h'.b5, hb5, low7_clear_reserved]
    have hrest : h' = { h with b5 := h'.b5 } :=
      congrArg (fun g : HeaderBytes => { g with b5 := h'.b5 }) hback
    rcases (low7_eq_iff h.b5 h'.b5).mp hlow with hsame | hflip
    · exact .inl (by rw [hsame] at hrest; exact hrest)
    · exact .inr (by rw [hflip] at hrest; exact hrest)
  · rintro (rfl | rfl)
    · rfl
    · exact decode9_setByte5 ((low7_eq_iff _ _).mpr (.inr rfl))

/-- Settles O5: operands with equal encodings have equal decodings of these, and flipping the reserved bit changes
a header. -/
theorem codecIsInjectiveUpToReservedBit : Obligations.CodecIsInjectiveUpToReservedBit := by
  refine ⟨fun len len' type type' flags flags' sidOp sidOp' hlt hlt' heq => ?_,
    fun h h' => ⟨fun hflip => ?_, decode9_eq_iff⟩⟩
  · have hdec := congrArg decode9 heq
    simp only [decode9_encode9, Header.mk.injEq] at hdec
    obtain ⟨hlen, htype, hflags, hsid⟩ := hdec
    exact ⟨hlen, htype, hflags, sidOfOperand_injOn hlt hlt' hsid⟩
  · have hb5 : h.b5 ^^^ 0x80#8 = h.b5 := congrArg HeaderBytes.b5 hflip
    simp at hb5

/-! ### What the encoder writes (R110, R117) -/

/-- The top bit of byte 5 is 0. -/
theorem toNat_encode9_b5_lt (len : BitVec 24) (type flags : Byte) (sidOp : BitVec 32) :
    (encode9 len type flags sidOp).b5.toNat < 128 := by
  simp only [encode9, toNat_append_eq_add, BitVec.toNat_zero]
  omega

/-- Settles O3: byte 5 is below 128, and no byte of the encoding takes bit 31 of `sid_op`. -/
theorem encodeClearsReservedBit : Obligations.EncodeClearsReservedBit := by
  intro len type flags sidOp
  refine ⟨Nat.testBit_lt_two_pow (i := 7) (toNat_encode9_b5_lt len type flags sidOp), ?_⟩
  simp [encode9, BitVec.extractLsb'_or]

/-! ### The codec's commands (R111 to R116) -/

/-- Settles O6: the command is the write of its result followed by the status. -/
theorem hdrDecodeWritesOnlyItsResult : Obligations.HdrDecodeWritesOnlyItsResult :=
  fun _ _ => rfl

/-- Settles O7: the bytes are `encode9`'s, whose fields O1 gives by way of the round trip; the reserved bit, which
O1 leaves out, is 0. -/
theorem hdrEncodeWritesOnlyItsResult : Obligations.HdrEncodeWritesOnlyItsResult := by
  intro len type flags sidOp s
  obtain ⟨hlen, hsid⟩ := headerFieldsAreBigEndian (encode9 len type flags sidOp)
  rw [decode9_encode9] at hlen hsid
  rw [toNat_sidOfOperand, Nat.mod_eq_of_lt (toNat_encode9_b5_lt len type flags sidOp)] at hsid
  exact ⟨encode9 len type flags sidOp, rfl, hlen.symm, rfl, rfl, hsid.symm⟩

/-! ### Enabled commands complete -/

theorem execConnOpen_completes {s : State} (hc : s.connState ≠ .opened) : ∃ t, execConnOpen s = .next t :=
  ⟨_, if_neg hc⟩

theorem execConnClose_completes {s : State} (ho : s.connState = .opened) (hp : ∀ f, s.rxPhase ≠ .dispatching f) :
    ∃ t, execConnClose s = .next t := by
  unfold execConnClose
  rw [if_neg (not_not.mpr ho)]
  cases h : s.rxPhase with
  | awaitHdr => exact ⟨_, rfl⟩
  | awaitPayload f => exact ⟨_, rfl⟩
  | dispatching f => exact absurd h (hp f)

theorem execRxReady_completes {s : State} (hs : s.Inv) (ho : s.connState = .opened) (ha : s.rxArmed = true) :
    ∃ t, execRxReady s = .next t := by
  unfold execRxReady
  rw [if_neg (not_not.mpr ho), if_neg (by simp [ha])]
  exact State.deliverRx_completes hs.rxOk

theorem execDispatchDone_completes {s : State} {f : RxFrame} (ho : s.connState = .opened)
    (hp : s.rxPhase = .dispatching f) (v : Verdict) : ∃ t, execDispatchDone v s = .next t := by
  unfold execDispatchDone
  rw [if_neg (not_not.mpr ho), hp]
  exact ⟨_, rfl⟩

theorem execTxEnqueue_completes {s : State} (ho : s.connState = .opened) (type flags : Byte) (sidOp : BitVec 32)
    (payload : List Byte) : ∃ t, execTxEnqueue type flags sidOp payload s = .next t :=
  ⟨_, if_neg (not_not.mpr ho)⟩

/-- A held TX_READY completes too (log 4). -/
theorem execTxReady_completes {s : State} (hs : s.Inv) (ho : s.connState = .opened) (ha : s.txArmed = true) :
    ∃ t, execTxReady s = .next t := by
  have hdeliver := State.deliverTx_completes (hs.txOk ho) ha
  unfold execTxReady
  rw [if_neg (not_not.mpr ho), if_neg (by simp [ha])]
  cases s.rxPhase with
  | awaitHdr => exact hdeliver
  | awaitPayload f => exact hdeliver
  | dispatching f => exact ⟨s, rfl⟩

/-- Settles O16: the codec's commands always complete, and each other command has its lemma above. -/
theorem enabledCommandsComplete : Obligations.EnabledCommandsComplete := by
  intro i s hs hen
  cases i with
  | connOpen => exact execConnOpen_completes hen
  | connClose =>
    obtain ⟨ho, hp⟩ := hen
    exact execConnClose_completes ho hp
  | hdrDecode h => exact ⟨_, rfl⟩
  | hdrEncode len type flags sidOp => exact ⟨_, rfl⟩
  | rxReady =>
    obtain ⟨ho, ha⟩ := hen
    exact execRxReady_completes hs ho ha
  | dispatchDone v =>
    obtain ⟨ho, f, hp⟩ := hen
    exact execDispatchDone_completes ho hp v
  | txEnqueue type flags sidOp payload => exact execTxEnqueue_completes hen type flags sidOp payload
  | txReady =>
    obtain ⟨ho, ha, _⟩ := hen
    exact execTxReady_completes hs ho ha

end Sys2Proof.Machine

/-! The receive state machine (41_receive.md). A delivered RX_READY is a read in one of three sub-steps: what each
leads to is said once for every answer of the source, and what it leaves alone once for every state. Payload
reassembly is an induction over the answers, one RX_READY for each. -/

namespace Sys2Proof.Machine

/-! ### A delivered RX_READY (R130, R131) -/

/-- The state in which a delivered RX_READY makes its read: `RX_ARMED` cleared, the status OK (R130;
60_exceptions.md R283). -/
abbrev State.rxReading (s : State) : State := (s.setRxArmed false).returnStatus .ok

@[simp] theorem State.rxReading_readAnswer (s : State) : s.rxReading.readAnswer = s.readAnswer := rfl

theorem execRxReady_of_enabled {s : State} (h : enabled .rxReady s) : exec .rxReady s = s.deliverRx := by
  obtain ⟨ho, ha⟩ := h
  exact (if_neg (not_not.mpr ho)).trans (if_neg (by simp [ha]))

theorem State.deliverRx_fatal {s : State} (hp : s.rxPhase = .awaitHdr) (hm : s.params.rxHdrMode = .fatal) :
    s.deliverRx = headerStepFatal s.rxReading := by
  simp only [State.deliverRx, hp, hm]

theorem State.deliverRx_buffered {s : State} (hp : s.rxPhase = .awaitHdr)
    (hm : s.params.rxHdrMode = .buffered) : s.deliverRx = headerStepBuffered s.rxReading := by
  simp only [State.deliverRx, hp, hm]

theorem State.deliverRx_awaitPayload {s : State} {f : RxFrame} (hp : s.rxPhase = .awaitPayload f) :
    s.deliverRx = payloadStep f s.rxReading := by
  simp only [State.deliverRx, hp]

/-- The answer listed first is the next one the source gives (log 2). -/
theorem State.readAnswer_of_cons {s : State} {a : ReadAnswer} {rest : List ReadAnswer}
    (h : s.sourceAnswers = a :: rest) : s.readAnswer = a := by
  simp [State.readAnswer, h]

@[simp] theorem bytesRead_data (b : Byte) (bs : List Byte) : bytesRead (.data b bs) = b :: bs := rfl

/-- An answer that delivers no byte takes none from the stream. -/
theorem State.afterRead_of_noBytes {s : State} (h : bytesRead s.readAnswer = []) :
    s.afterRead =
      { s with sourceAnswers := s.afterRead.sourceAnswers, freeDraws := s.afterRead.freeDraws } := by
  simp [State.afterRead, h]

/-! ### Reads that store nothing (R140, R144, R145) -/

/-- `o` is what a sub-step that asks for `request` bytes in `s` answers when no byte can be stored. -/
structure StoresNothing (request : Nat) (s : State) (o : Outcome) : Prop where
  closed     : s.readAnswer = .closed → o = raiseTeardown .rxClosed s.afterRead
  error      : s.readAnswer = .error → o = raiseTeardown .rxError s.afterRead
  wouldBlock : s.readAnswer = .wouldBlock → o = .next (s.afterRead.setRxArmed true)
  oversized  : ∀ b bs, s.readAnswer = .data b bs → request < (b :: bs).length →
    o = raiseTeardown .rxOverflow s.afterRead

theorem headerStepFatal_storesNothing (s : State) : StoresNothing 9 s (headerStepFatal s) where
  closed h := by simp only [headerStepFatal, h]
  error h := by simp only [headerStepFatal, h]
  wouldBlock h := by simp only [headerStepFatal, h]
  oversized b bs h hlen := by simp only [headerStepFatal, h]; exact if_pos hlen

theorem headerStepBuffered_storesNothing (s : State) :
    StoresNothing (9 - s.rxHdrCnt.toNat) s (headerStepBuffered s) where
  closed h := by simp only [headerStepBuffered, h]
  error h := by simp only [headerStepBuffered, h]
  wouldBlock h := by simp only [headerStepBuffered, h]
  oversized b bs h hlen := by simp only [headerStepBuffered, h]; exact if_pos hlen

theorem payloadStep_storesNothing (f : RxFrame) (s : State) :
    StoresNothing (f.hdr.len.toNat - f.xfer.toNat) s (payloadStep f s) where
  closed h := by simp only [payloadStep, h]
  error h := by simp only [payloadStep, h]
  wouldBlock h := by simp only [payloadStep, h]
  oversized b bs h hlen := by simp only [payloadStep, h]; exact if_pos hlen

/-- In both receiving phases and both header modes alike. -/
theorem State.deliverRx_storesNothing {s : State} (hp : ∀ f, s.rxPhase ≠ .dispatching f) :
    StoresNothing s.readRequest s.rxReading s.deliverRx := by
  cases hph : s.rxPhase with
  | awaitHdr =>
    cases hm : s.params.rxHdrMode with
    | fatal =>
      rw [State.deliverRx_fatal hph hm, show s.readRequest = 9 by simp only [State.readRequest, hph, hm]]
      exact headerStepFatal_storesNothing _
    | buffered =>
      rw [State.deliverRx_buffered hph hm,
        show s.readRequest = 9 - s.rxHdrCnt.toNat by simp only [State.readRequest, hph, hm]]
      exact headerStepBuffered_storesNothing s.rxReading
  | awaitPayload f =>
    rw [State.deliverRx_awaitPayload hph,
      show s.readRequest = f.hdr.len.toNat - f.xfer.toNat by simp only [State.readRequest, hph]]
    exact payloadStep_storesNothing f _
  | dispatching f => exact absurd hph (hp f)

/-! ### Payload bytes (R139 to R143) -/

/-- Appending to a frame is a write behind the bytes it holds (R141). -/
theorem RxFrame.append_write {f f' : RxFrame} {bs : List Byte} (h : f.append bs = some f') :
    f.buf.write f.xfer.toNat bs = some f'.buf := by
  unfold RxFrame.append at h
  split at h <;> cases h
  assumption

/-- Bytes that fit are stored; whether they complete the frame decides what follows (R141 to R143). -/
theorem payloadStep_of_append {f f' : RxFrame} {s : State} {b : Byte} {bs : List Byte}
    (ha : s.readAnswer = .data b bs) (hfit : f.xfer.toNat + (b :: bs).length ≤ f.hdr.len.toNat)
    (happ : f.append (b :: bs) = some f') :
    payloadStep f s =
      if f'.xfer = f'.hdr.len then dispatchFrame f' s.afterRead
      else .next ((s.afterRead.setRxPhase (.awaitPayload f')).setRxArmed true) := by
  simp only [payloadStep, ha, happ]
  exact if_neg (by omega)

/-- Bytes that leave the payload incomplete (R143). -/
theorem payloadStep_incomplete {f f' : RxFrame} {s : State} {b : Byte} {bs : List Byte}
    (ha : s.readAnswer = .data b bs) (hlt : f.xfer.toNat + (b :: bs).length < f.hdr.len.toNat)
    (happ : f.append (b :: bs) = some f') (hhdr : f'.hdr = f.hdr)
    (hx : f'.xfer.toNat = f.xfer.toNat + (b :: bs).length) :
    payloadStep f s = .next ((s.afterRead.setRxPhase (.awaitPayload f')).setRxArmed true) := by
  rw [payloadStep_of_append ha hlt.le happ, if_neg]
  intro he
  rw [he, hhdr] at hx
  omega

/-- Bytes that complete the payload (R142, R146). -/
theorem payloadStep_complete {f : RxFrame} {s : State} {b : Byte} {bs : List Byte} (hf : f.Ok)
    (ha : s.readAnswer = .data b bs) (heq : f.xfer.toNat + (b :: bs).length = f.hdr.len.toNat) :
    ∃ f', f'.hdr = f.hdr ∧ f'.xfer = f.hdr.len ∧
      payloadStep f s =
        .next ((s.afterRead.setRxPhase (.dispatching f')).emitDispatch ⟨f.hdr, f.buf.bytes ++ b :: bs⟩) := by
  obtain ⟨f', happ, hf', hhdr, hx, hbytes⟩ := RxFrame.append_ok hf heq.le
  have hdone : f'.xfer = f.hdr.len := BitVec.eq_of_toNat_eq (hx.trans heq)
  refine ⟨f', hhdr, hdone, ?_⟩
  rw [payloadStep_of_append ha heq.le happ, hhdr, if_pos hdone,
    dispatchFrame_complete hf' (hdone.trans (congrArg Header.len hhdr).symm), hhdr, hbytes]

/-- The bytes that complete the payload dispatch the frame in the same step (R142, R146). -/
theorem execRxReady_dispatches {s : State} {f : RxFrame} {b : Byte} {bs : List Byte} (hs : s.Inv)
    (hen : enabled .rxReady s) (hp : s.rxPhase = .awaitPayload f) (ha : s.readAnswer = .data b bs)
    (heq : f.xfer.toNat + (b :: bs).length = f.hdr.len.toNat) :
    ∃ f', f'.hdr = f.hdr ∧ f'.xfer = f.hdr.len ∧
      exec .rxReady s = .next ((s.rxReading.afterRead.setRxPhase (.dispatching f')).emitDispatch
        ⟨f.hdr, f.buf.bytes ++ b :: bs⟩) := by
  obtain ⟨hf, _⟩ := hs.waiting f hp
  rw [execRxReady_of_enabled hen, State.deliverRx_awaitPayload hp]
  exact payloadStep_complete hf ha heq

/-- Settles O35: appending is one write behind the bytes held, and writes leave the rest of the buffer alone. -/
theorem payloadChunkIsStored : Obligations.PayloadChunkIsStored := by
  intro s f b bs hs hen hp ha hlt
  obtain ⟨hf, _⟩ := hs.waiting f hp
  obtain ⟨f', happ, _, hhdr, hx, _⟩ := RxFrame.append_ok hf hlt.le
  have hw := RxFrame.append_write happ
  rw [execRxReady_of_enabled hen, State.deliverRx_awaitPayload hp,
    payloadStep_incomplete (s := s.rxReading) ha hlt happ hhdr hx]
  exact ⟨_, f', rfl, rfl, rfl, rfl, hhdr, hx, Buffer.read_write hw, fun _ hk => Buffer.load_write_other hw hk, rfl,
    by simp [ha]⟩

/-- Settles O36: the complete frame is read back as the bytes held followed by the ones delivered. -/
theorem lastChunkDispatchesFrame : Obligations.LastChunkDispatchesFrame := by
  intro s f b bs hs hen hp ha heq
  obtain ⟨f', hhdr, hx, hexec⟩ := execRxReady_dispatches hs hen hp ha heq
  exact ⟨_, f', hexec, rfl, hhdr, hx, rfl, rfl, rfl⟩

/-! ### Reassembly (R149) -/

/-- Between steps RX_READY is enabled while an open Connection awaits payload (R53). -/
theorem State.Inv.rxReady_enabled {s : State} {f : RxFrame} (hs : s.Inv) (ho : s.connState = .opened)
    (hp : s.rxPhase = .awaitPayload f) : enabled .rxReady s :=
  ⟨ho, (hs.rxArmed ho).2 (by simp [hp])⟩

/-- A step on an RX_READY at the port (30_encoding.md R96). -/
theorem step_of_rxReady {s : State} {rest : List Byte} (h : s.port = 0x20#8 :: rest) :
    step s = exec .rxReady (s.setPort rest) :=
  step_of_instr ((congrArg decode h).trans (decode_encode_append (i := .rxReady) rfl rest))

/-- Where the payload stays incomplete, data and would-block answers alike leave the Connection waiting, with the
bytes delivered behind the ones held (R143, R144). -/
theorem execRxReady_keepsWaiting {s : State} {f : RxFrame} {a : ReadAnswer} (hs : s.Inv)
    (ho : s.connState = .opened) (hp : s.rxPhase = .awaitPayload f) (ha : s.readAnswer = a)
    (hgood : a ≠ .closed ∧ a ≠ .error) (hlt : f.xfer.toNat + (bytesRead a).length < f.hdr.len.toNat) :
    ∃ t f', exec .rxReady s = .next t ∧ t.connState = .opened ∧ t.rxPhase = .awaitPayload f' ∧
      f'.hdr = f.hdr ∧ f'.xfer.toNat = f.xfer.toNat + (bytesRead a).length ∧
      f'.buf.bytes = f.buf.bytes ++ bytesRead a ∧ t.dispatched = s.dispatched ∧
      t.sourceAnswers = s.sourceAnswers.tail ∧ t.port = s.port := by
  obtain ⟨hf, _⟩ := hs.waiting f hp
  rw [execRxReady_of_enabled (hs.rxReady_enabled ho hp)]
  cases a with
  | data b bs =>
    obtain ⟨f', happ, _, hhdr, hx, hbytes⟩ := RxFrame.append_ok hf (bs := b :: bs) hlt.le
    rw [State.deliverRx_awaitPayload hp, payloadStep_incomplete (s := s.rxReading) ha hlt happ hhdr hx]
    exact ⟨_, f', rfl, ho, rfl, hhdr, hx, hbytes, rfl, rfl, rfl⟩
  | wouldBlock =>
    rw [(State.deliverRx_storesNothing (by simp [hp])).wouldBlock ha]
    exact ⟨_, f, rfl, ho, hp, rfl, rfl, (List.append_nil _).symm, rfl, rfl, rfl⟩
  | closed => exact absurd rfl hgood.1
  | error => exact absurd rfl hgood.2

/-- Answers whose last one delivers data deliver a byte. -/
theorem flatMap_bytesRead_length_pos {answers : List ReadAnswer} {b : Byte} {bs : List Byte}
    (h : answers.getLast? = some (.data b bs)) : 0 < (answers.flatMap bytesRead).length :=
  List.length_pos_of_mem (List.mem_flatMap.mpr ⟨_, List.mem_of_getLast? h, List.mem_cons_self (a := b)⟩)

/-- Settles O37, by induction over the answers: while later ones still deliver a byte the frame stays incomplete,
so the step leaves the Connection waiting with a longer frame; the last one completes it. -/
theorem payloadIsReassembled : Obligations.PayloadIsReassembled := by
  intro answers
  induction answers with
  | nil =>
    rintro later behind s f _ _ _ _ ⟨b, bs, hlast⟩
    cases hlast
  | cons a rest ih =>
    rintro later behind s f hs ho hp hgood ⟨b, bs, hlast⟩ hsum hsource hport
    have hstep := step_of_rxReady hport
    have hs' := hs.setPort (List.replicate rest.length 0x20#8 ++ behind)
    have ha := State.readAnswer_of_cons hsource
    cases rest with
    | nil =>
      cases hlast
      obtain ⟨f', hhdr, _, hexec⟩ :=
        execRxReady_dispatches hs' (hs'.rxReady_enabled ho hp) hp ha (by simpa using hsum)
      refine ⟨_, f', run_next 0 (hstep.trans hexec), rfl, hhdr, ?_, by simp [hsource], by simp⟩
      simp
    | cons a' rest =>
      have hlast : (a' :: rest).getLast? = some (.data b bs) := hlast
      have hmore := flatMap_bytesRead_length_pos hlast
      rw [List.flatMap_cons, List.length_append] at hsum
      obtain ⟨t, f', hexec, hto, htp, hhdr, hx, hbytes, hdisp, htsource, htport⟩ :=
        execRxReady_keepsWaiting hs' ho hp ha (hgood a List.mem_cons_self) (by omega)
      have hnext := hstep.trans hexec
      obtain ⟨u, f'', hrun, hup, huhdr, hudisp, husource, huport⟩ :=
        ih later behind t f' (stepKeepsInvariant s t hs hnext) hto htp
          (fun x hx => hgood x (List.mem_cons_of_mem _ hx)) ⟨b, bs, hlast⟩ (by rw [hhdr, hx]; omega)
          (by rw [htsource]; simp [hsource]) htport
      refine ⟨u, f'', (run_next _ hnext).trans hrun, hup, huhdr.trans hhdr, ?_, husource, huport⟩
      rw [hudisp, hdisp, hhdr, hbytes, List.flatMap_cons, List.append_assoc]
      rfl

/-! ### Reads that end the Connection or wait (R132, R140, R144, R145) -/

/-- Settles O29: the sub-steps of both phases answer such reads alike, and a would-block answer takes no byte. -/
theorem readAnswersWithoutData : Obligations.ReadAnswersWithoutData := by
  intro s hen hp
  have hnothing := State.deliverRx_storesNothing hp
  rw [execRxReady_of_enabled hen]
  refine ⟨hnothing.closed, hnothing.error, fun ha => ⟨_, hnothing.wouldBlock ha, ?_⟩⟩
  rw [State.afterRead_of_noBytes (by simp [ha, bytesRead])]
  rfl

/-- Settles O30: every sub-step compares the answer with what it asked for before anything else. -/
theorem oversizedReadTearsDown : Obligations.OversizedReadTearsDown := by
  intro s b bs hen hp ha hlen
  rw [execRxReady_of_enabled hen]
  exact ⟨(State.deliverRx_storesNothing hp).oversized b bs ha hlen, by simp [ha]⟩

theorem headerStepFatal_short {s : State} {b : Byte} {bs : List Byte} (ha : s.readAnswer = .data b bs)
    (hlen : (b :: bs).length < 9) : headerStepFatal s = raiseTeardown .rxShortHdr s.afterRead := by
  simp only [headerStepFatal, ha]
  rw [if_neg (by omega), if_pos hlen]

/-- Settles O31: the read is short of the nine bytes asked for, so nothing is stored. -/
theorem shortHeaderReadIsFatal : Obligations.ShortHeaderReadIsFatal := by
  intro s b bs hen hp hm ha hlen
  rw [execRxReady_of_enabled hen, State.deliverRx_fatal hp hm,
    headerStepFatal_short (s := s.rxReading) ha hlen]
  exact ⟨rfl, by simp [ha]⟩

/-! ### Header bytes (R132 to R138) -/

/-- Nine bytes under FATAL complete the header (R132). -/
theorem headerStepFatal_of_write {s : State} {b : Byte} {bs : List Byte} {buf : Buffer}
    (ha : s.readAnswer = .data b bs) (hlen : (b :: bs).length = 9)
    (hw : s.rxHdrBuf.write 0 (b :: bs) = some buf) :
    headerStepFatal s = headerComplete (s.afterRead.setRxHdr buf 9#4) := by
  simp only [headerStepFatal, ha, hw]
  rw [if_neg (by omega), if_neg (by omega)]

/-- Bytes that fit under BUFFERED are stored; whether they complete the header decides what follows (R133, R134). -/
theorem headerStepBuffered_of_write {s : State} {b : Byte} {bs : List Byte} {buf : Buffer}
    (ha : s.readAnswer = .data b bs) (hfit : s.rxHdrCnt.toNat + (b :: bs).length ≤ 9)
    (hw : s.rxHdrBuf.write s.rxHdrCnt.toNat (b :: bs) = some buf) :
    headerStepBuffered s =
      if s.rxHdrCnt.toNat + (b :: bs).length = 9 then headerComplete (s.afterRead.setRxHdr buf 9#4)
      else .next ((s.afterRead.setRxHdr buf
        (BitVec.ofNat 4 (s.rxHdrCnt.toNat + (b :: bs).length))).setRxArmed true) := by
  simp only [headerStepBuffered, ha, hw]
  exact if_neg (by omega)

/-- Settles O32: the bytes are written behind those held, so the buffer stays exactly filled. -/
theorem bufferedHeaderAccumulates : Obligations.BufferedHeaderAccumulates := by
  intro s b bs hs hen hp hm ha hlt
  obtain ⟨buf, hw, hsize, hfill, hbytes⟩ := rxHdrBuf_write hs.hdrSize hs.hdrFilled hlt.le
  have hcnt : (BitVec.ofNat 4 (s.rxHdrCnt.toNat + (b :: bs).length)).toNat =
      s.rxHdrCnt.toNat + (b :: bs).length := by
    rw [BitVec.toNat_ofNat, Nat.mod_eq_of_lt (by omega)]
  have hstep := (headerStepBuffered_of_write (s := s.rxReading) ha hlt.le hw).trans (if_neg hlt.ne)
  rw [execRxReady_of_enabled hen, State.deliverRx_buffered hp hm]
  refine ⟨_, hstep, hp, rfl, rfl, hcnt, ?_, fun k hk => ?_, rfl, rfl⟩
  · have hread := Buffer.read_filled (off := 0) hfill (Nat.zero_add _).le (by omega)
    rw [List.drop_zero, List.take_of_length_le (Buffer.bytes_length hfill).le, hbytes] at hread
    exact (congrArg (buf.read 0) hcnt).trans hread
  · have hk : s.rxHdrCnt.toNat + (b :: bs).length ≤ k := hcnt ▸ hk
    exact (Buffer.load_filled hfill k).trans
      (List.getElem?_eq_none ((Buffer.bytes_length hfill).trans_le hk))

/-- Nine bytes are one header's only. -/
theorem headerBytes_toList_injective : Function.Injective HeaderBytes.toList := by
  rintro ⟨⟩ ⟨⟩ h
  simpa [HeaderBytes.toList] using h

/-- The ninth header byte, in either mode: the header is decoded, the header buffer emptied, and the frame
allocated (R132 to R135). -/
theorem State.deliverRx_ninthHeaderByte {s : State} {b : Byte} {bs : List Byte} {hb : HeaderBytes} (hs : s.RxOk)
    (hp : s.rxPhase = .awaitHdr) (ha : s.readAnswer = .data b bs)
    (hbytes : s.rxHdrBuf.bytes ++ b :: bs = hb.toList) :
    s.deliverRx = allocateRx (decode9 hb) (s.rxReading.afterRead.setRxHdr (Buffer.fresh 9) 0#4) := by
  have hnine : s.rxHdrCnt.toNat + (b :: bs).length = 9 := by
    rw [← Buffer.bytes_length hs.hdrFilled, ← List.length_append, hbytes]
    rfl
  obtain ⟨buf, hw, hsize, hfill, hbuf⟩ := rxHdrBuf_write hs.hdrSize hs.hdrFilled hnine.le
  rw [hnine] at hfill
  have hcomplete : s.deliverRx = headerComplete (s.rxReading.afterRead.setRxHdr buf 9#4) := by
    cases hm : s.params.rxHdrMode with
    | fatal =>
      have hzero : s.rxHdrCnt.toNat = 0 := by rw [hs.hdrFatal hm]; rfl
      rw [hzero] at hw hnine
      rw [State.deliverRx_fatal hp hm]
      exact headerStepFatal_of_write ha (by omega) hw
    | buffered =>
      rw [State.deliverRx_buffered hp hm]
      exact (headerStepBuffered_of_write (s := s.rxReading) ha hnine.le hw).trans (if_pos hnine)
  obtain ⟨hb', hhb', hdecoded⟩ :=
    headerComplete_filled (s := s.rxReading.afterRead.setRxHdr buf 9#4) hsize hfill
  obtain rfl : hb' = hb := headerBytes_toList_injective (hhb'.trans (hbuf.trans hbytes))
  exact hcomplete.trans hdecoded

/-- Settles O33: the allocation succeeds, so the frame is dispatched or waits, as its length says. -/
theorem completeHeaderStartsFrame : Obligations.CompleteHeaderStartsFrame := by
  intro s b bs hb hs hen hp ha hbytes hcap halloc
  rw [execRxReady_of_enabled hen, State.deliverRx_ninthHeaderByte hs.rxOk hp ha hbytes]
  have hopen := hen.1
  rcases allocateRx_cases (decode9 hb) (s.rxReading.afterRead.setRxHdr (Buffer.fresh 9) 0#4) with
    ⟨hlong, _⟩ | ⟨_, hfail, _⟩ | ⟨_, _, hz, he⟩ | ⟨_, _, hz, he⟩
  · exact absurd hcap (Nat.not_le.mpr hlong)
  · cases halloc.symm.trans hfail
  · exact ⟨_, he, rfl, hopen, rfl, rfl, by simp [ha], fun _ => ⟨rfl, rfl, rfl⟩, absurd hz⟩
  · exact ⟨_, he, rfl, hopen, rfl, rfl, by simp [ha], fun h => absurd h hz, fun _ => ⟨rfl, rfl, rfl⟩⟩

theorem allocateRx_tooLong {hd : Header} {s : State} (hlong : s.params.rxBufCap < hd.len) :
    allocateRx hd s = .next (s.teardown .rxAlloc) := if_pos hlong

theorem allocateRx_noBuffer {hd : Header} {s : State} (hcap : ¬ s.params.rxBufCap < hd.len)
    (hfail : s.allocAnswer = .fail) : allocateRx hd s = .next (s.afterAlloc.teardown .rxAlloc) := by
  rw [allocateRx, if_neg hcap, hfail]
  rfl

/-- Settles O34: the capacity is checked before the draw (R147), and neither failure stores anything. -/
theorem receiveAllocationFailureTearsDown : Obligations.ReceiveAllocationFailureTearsDown := by
  intro s b bs hb hs hen hp ha hbytes
  rw [execRxReady_of_enabled hen, State.deliverRx_ninthHeaderByte hs.rxOk hp ha hbytes]
  exact ⟨fun hlong => allocateRx_tooLong hlong,
    fun hcap hfail => allocateRx_noBuffer (Nat.not_lt.mpr hcap) hfail⟩

/-! ### What RX_READY leaves alone (R130) -/

/-- A `dispatch()` that completes hands over the frame's header with bytes read from its buffer. -/
theorem dispatchFrame_next {f : RxFrame} {s t : State} (h : dispatchFrame f s = .next t) :
    ∃ bs, t = (s.setRxPhase (.dispatching f)).emitDispatch ⟨f.hdr, bs⟩ := by
  unfold dispatchFrame at h
  split at h <;> cases h
  exact ⟨_, rfl⟩

theorem allocateRx_dispatched {hd : Header} {s t : State} (h : allocateRx hd s = .next t) :
    s.dispatched <+: t.dispatched := by
  rcases allocateRx_cases hd s with ⟨_, he⟩ | ⟨_, _, he⟩ | ⟨_, _, _, he⟩ | ⟨_, _, _, he⟩ <;>
    (rw [he] at h; cases h)
  · exact List.prefix_rfl
  · exact List.prefix_rfl
  · exact List.prefix_append _ _
  · exact List.prefix_rfl

theorem headerComplete_dispatched {s t : State} (h : headerComplete s = .next t) :
    s.dispatched <+: t.dispatched := by
  unfold headerComplete at h
  split at h
  · cases h
  · split at h
    · cases h
    · exact (allocateRx_dispatched h :)

theorem headerStepFatal_dispatched {s t : State} (h : headerStepFatal s = .next t) :
    s.dispatched <+: t.dispatched := by
  unfold headerStepFatal at h
  split at h
  · split at h
    · cases h; exact List.prefix_rfl
    · split at h
      · cases h; exact List.prefix_rfl
      · split at h
        · cases h
        · exact (headerComplete_dispatched h :)
  all_goals cases h; exact List.prefix_rfl

theorem headerStepBuffered_dispatched {s t : State} (h : headerStepBuffered s = .next t) :
    s.dispatched <+: t.dispatched := by
  unfold headerStepBuffered at h
  split at h
  · split at h
    · cases h; exact List.prefix_rfl
    · split at h
      · cases h
      · split at h
        · exact (headerComplete_dispatched h :)
        · cases h; exact List.prefix_rfl
  all_goals cases h; exact List.prefix_rfl

/-- `RX_HDR_BUF` and `RX_HDR_CNT` are unchanged. -/
def HdrSame (s t : State) : Prop := t.rxHdrBuf = s.rxHdrBuf ∧ t.rxHdrCnt = s.rxHdrCnt

/-- A payload read only adds dispatched frames, and touches the header buffer in a teardown alone. -/
theorem payloadStep_leaves {f : RxFrame} {s t : State} (h : payloadStep f s = .next t) :
    s.dispatched <+: t.dispatched ∧ (t.connState = .opened → HdrSame s t) := by
  unfold payloadStep at h
  split at h
  · split at h
    · cases h; exact ⟨List.prefix_rfl, nofun⟩
    · split at h
      · cases h
      · split at h
        · obtain ⟨payload, rfl⟩ := dispatchFrame_next h
          exact ⟨List.prefix_append _ _, fun _ => ⟨rfl, rfl⟩⟩
        · cases h; exact ⟨List.prefix_rfl, fun _ => ⟨rfl, rfl⟩⟩
  · cases h; exact ⟨List.prefix_rfl, nofun⟩
  · cases h; exact ⟨List.prefix_rfl, fun _ => ⟨rfl, rfl⟩⟩
  · cases h; exact ⟨List.prefix_rfl, nofun⟩

/-- In every phase a delivered RX_READY only adds dispatched frames; outside AWAIT_HDR it touches the header buffer
in a teardown alone. -/
theorem State.deliverRx_leaves {s t : State} (h : s.deliverRx = .next t) :
    s.dispatched <+: t.dispatched ∧ (t.connState = .opened → s.rxPhase ≠ .awaitHdr → HdrSame s t) := by
  cases hp : s.rxPhase with
  | awaitHdr =>
    refine ⟨?_, fun _ hne => absurd rfl hne⟩
    cases hm : s.params.rxHdrMode with
    | fatal =>
      rw [State.deliverRx_fatal hp hm] at h
      exact (headerStepFatal_dispatched h :)
    | buffered =>
      rw [State.deliverRx_buffered hp hm] at h
      exact (headerStepBuffered_dispatched h :)
  | awaitPayload f =>
    rw [State.deliverRx_awaitPayload hp] at h
    obtain ⟨hdisp, hhdr⟩ := payloadStep_leaves h
    exact ⟨hdisp, fun ho _ => hhdr ho⟩
  | dispatching f =>
    simp only [State.deliverRx, hp] at h
    cases h
    exact ⟨List.prefix_rfl, fun _ _ => ⟨rfl, rfl⟩⟩

/-- A step of the receiver leaves the wire, the port and the other agents' answers alone, and closes nothing. -/
theorem RxSame.outside {s t : State} (h : RxSame s t) :
    t.wireOut = s.wireOut ∧ t.port = s.port ∧ t.sinkAnswers = s.sinkAnswers ∧
    t.registerAnswers = s.registerAnswers ∧ t.closes = s.closes := by
  rw [h.1]
  simp

/-- Settles O28: an RX_READY ends in a state its sub-steps may reach, or tears one down. -/
theorem rxReadyFrame : Obligations.RxReadyFrame := by
  intro s t h
  obtain ⟨_, h⟩ := execRxReady_next h
  obtain ⟨hdisp, hhdr⟩ := State.deliverRx_leaves h
  rcases State.deliverRx_ends h with ⟨hsame, _⟩ | ⟨r, u, rfl, _, hsame⟩ <;>
    obtain ⟨hparams, _, hreason, hcmd, hstat, hq, htx, hdec, henc⟩ := hsame.fields <;>
    obtain ⟨hwire, hport, hsink, hreg, hcloses⟩ := hsame.outside <;>
    refine ⟨hparams, hdec, henc, hwire, hport, hsink, hreg, hdisp, hcmd, hstat, fun ho => ?_⟩
  · exact ⟨hq, htx, hreason, hcloses, hhdr ho⟩
  · cases ho

/-! ### DISPATCH_DONE and the contract faults (R131, R150, R151; 43_connection.md R215) -/

theorem execDispatchDone_of_notOpen {s : State} (ho : s.connState ≠ .opened) (v : Verdict) :
    exec (.dispatchDone v) s = .fault .noConn := if_pos ho

theorem execDispatchDone_of_notDispatching {s : State} (ho : s.connState = .opened)
    (hp : ∀ f, s.rxPhase ≠ .dispatching f) (v : Verdict) :
    exec (.dispatchDone v) s = .fault .notDispatching := by
  refine (if_neg (not_not.mpr ho)).trans ?_
  cases h : s.rxPhase with
  | awaitHdr => rfl
  | awaitPayload f => rfl
  | dispatching f => exact absurd h (hp f)

theorem execDispatchDone_of_dispatching {s : State} {f : RxFrame} (ho : s.connState = .opened)
    (hp : s.rxPhase = .dispatching f) (v : Verdict) : exec (.dispatchDone v) s = .next (s.verdict v) := by
  refine (if_neg (not_not.mpr ho)).trans ?_
  rw [hp]

/-- Settles O38: while a frame is out the verdict alone decides. -/
theorem dispatchDoneFollowsTheVerdict : Obligations.DispatchDoneFollowsTheVerdict := by
  intro s v
  refine ⟨fun ho => execDispatchDone_of_notOpen ho v, fun ho hp => execDispatchDone_of_notDispatching ho hp v,
    fun ho f hp => ?_⟩
  have hdone := execDispatchDone_of_dispatching ho hp
  exact ⟨hdone .accept, hdone .fail, fun b => hdone (.reserved b)⟩

theorem execConnClose_of_dispatching {s : State} {f : RxFrame} (ho : s.connState = .opened)
    (hp : s.rxPhase = .dispatching f) : exec .connClose s = .fault .closeInDispatch := by
  refine (if_neg (not_not.mpr ho)).trans ?_
  rw [hp]

/-- Settles O25: every command checks the Connection first, and its own condition next. -/
theorem contractFaults : Obligations.ContractFaults := fun _ =>
  ⟨fun ho => if_pos ho,
    fun hc v _ _ _ _ => ⟨if_pos hc, if_pos hc, if_pos hc, execDispatchDone_of_notOpen hc v, if_pos hc⟩,
    fun ho _ hp => execConnClose_of_dispatching ho hp,
    fun ho ha => (if_neg (not_not.mpr ho)).trans (if_pos ha),
    execDispatchDone_of_notDispatching⟩

end Sys2Proof.Machine

/-! The transmit queue and its writer (42_transmit.md). What each command does on the transmit side is said once, and
frame order, teardown and the wire's frame are read off it. A pass of the writer is a header write, then a payload
write: what each leads to is said for every answer of the sink, and one TX_READY is put together from these. -/

namespace Sys2Proof.Machine

/-! ### A delivered TX_READY (R180, R181) -/

/-- The state in which a delivered TX_READY begins its pass: `TX_ARMED` cleared, the status OK (R180;
60_exceptions.md R283). -/
abbrev State.txWriting (s : State) : State := (s.setTxArmed false).returnStatus .ok

@[simp] theorem State.txWriting_writeAnswer (s : State) : s.txWriting.writeAnswer = s.writeAnswer := rfl

theorem execTxReady_of_enabled {s : State} (h : enabled .txReady s) : exec .txReady s = txPass s.txq s.txWriting := by
  obtain ⟨ho, ha, hp⟩ := h
  refine ((if_neg (not_not.mpr ho)).trans (if_neg (by simp [ha]))).trans ?_
  cases h : s.rxPhase with
  | awaitHdr => rfl
  | awaitPayload f => rfl
  | dispatching f => exact absurd h (hp f)

/-- Settles O41: the Connection is checked first, the armed bit next, and the hold last. -/
theorem txReadyFaultsOrIsHeld : Obligations.TxReadyFaultsOrIsHeld := by
  refine fun s => ⟨fun ho => if_pos ho, fun ho ha => (if_neg (not_not.mpr ho)).trans (if_pos ha),
    fun ho ha f hp => ?_⟩
  refine ((if_neg (not_not.mpr ho)).trans (if_neg (by simp [ha]))).trans ?_
  rw [hp]

/-- A TX_READY that completes under the invariants was held, or moved bytes of the queue to the wire. -/
theorem execTxReady_moves {s t : State} (hs : s.Inv) (h : exec .txReady s = .next t) :
    t = s ∨ TxMove s.txWriting t := by
  obtain ⟨ho, ha, rfl | h⟩ := execTxReady_next h
  · exact .inl rfl
  · have htx := hs.txOk ho
    obtain ⟨t', ht', hmove⟩ := txPass_move s.txq s.txWriting rfl (htx.armed.1 ha) htx.queue rfl
    cases h.symm.trans ht'
    exact .inr hmove

/-- Settles O42: a pass changes the queue, the wire and the sink's answers, and a teardown besides these the
Connection's own registers. -/
theorem txReadyFrame : Obligations.TxReadyFrame := by
  intro s t _ hen h
  rw [execTxReady_of_enabled hen] at h
  rcases txPass_ends s.txq h with ⟨hsame, _⟩ | ⟨r, u, rfl, _, hsame, _⟩ <;>
    obtain ⟨hparams, _, hreason, hcmd, hphase, hrxa, hbuf, hcnt, hdec, henc, hdisp, hcloses, _, htaken, hport,
      hsource, halloc, hreg⟩ := hsame.fields <;>
    refine ⟨hparams, hdec, henc, hdisp, htaken, hport, hsource, halloc, hreg, hcmd, fun ho => ?_⟩
  · exact ⟨hphase, hrxa, hbuf, hcnt, hreason, hcloses⟩
  · cases ho

/-! ### TX_ENQUEUE (R170 to R174) -/

theorem execTxEnqueue_of_open {s : State} (ho : s.connState = .opened) (type flags : Byte) (sidOp : BitVec 32)
    (payload : List Byte) :
    exec (.txEnqueue type flags sidOp payload) s = .next (s.enqueue type flags sidOp payload) :=
  if_neg (not_not.mpr ho)

theorem fitsLength_of_lt {payload : List Byte} (hfit : payload.length < 2 ^ 24) : fitsLength payload = true :=
  decide_eq_true hfit

theorem toNat_enqueueHeader_len {payload : List Byte} (hfit : payload.length < 2 ^ 24) (type flags : Byte)
    (sidOp : BitVec 32) : (enqueueHeader type flags sidOp payload).len.toNat = payload.length := by
  rw [enqueueHeader, BitVec.toNat_ofNat, Nat.mod_eq_of_lt hfit]

/-- The copy TX_ENQUEUE takes reads back as the payload (R174). -/
theorem Buffer.read_ofBytes (bs : List Byte) : (Buffer.ofBytes bs).read 0 bs.length = some bs := by
  obtain ⟨hfill, hbytes⟩ := Buffer.ofBytes_filled bs
  rw [Buffer.read_filled hfill (Nat.zero_add _).le le_rfl, hbytes, List.drop_zero, List.take_length]

/-- Nothing of a new entry has been sent (R172). -/
theorem TxEntry.unsent_ofRequest (type flags : Byte) (sidOp : BitVec 32) (payload : List Byte) :
    (TxEntry.ofRequest type flags sidOp payload).unsent =
      (enqueueHeader type flags sidOp payload).wireBytes ++ payload := by
  obtain ⟨_, hbytes⟩ := Buffer.ofBytes_filled payload
  simp [TxEntry.unsent, TxEntry.ofRequest, hbytes]

/-- Settles O39: with room and a buffer the request is the fourth of TX_ENQUEUE's outcomes. -/
theorem enqueueAppendsAndArms : Obligations.EnqueueAppendsAndArms := by
  intro s type flags sidOp payload ho hfit hroom halloc
  rw [execTxEnqueue_of_open ho]
  rcases State.enqueue_cases type flags sidOp payload s with
    ⟨hlong, _⟩ | ⟨_, hfull, _⟩ | ⟨_, _, hfail, _⟩ | ⟨_, _, _, he⟩
  · cases (fitsLength_of_lt hfit).symm.trans hlong
  · cases hroom.symm.trans hfull
  · cases halloc.symm.trans hfail
  · rw [he]
    have harmed : (s.txArmed || s.txq.isEmpty) = if s.txq = [] then true else s.txArmed := by
      cases s.txq <;> simp
    exact ⟨_, TxEntry.ofRequest type flags sidOp payload, rfl, toNat_enqueueHeader_len hfit type flags sidOp, rfl,
      rfl, toNat_sidOfOperand sidOp, rfl, Buffer.read_ofBytes payload, rfl, rfl, by rw [← harmed]; rfl⟩

/-- Settles O40: each refusal is one of TX_ENQUEUE's outcomes, and its conditions exclude the others. -/
theorem enqueueRefusalsChangeNothing : Obligations.EnqueueRefusalsChangeNothing := by
  intro s type flags sidOp payload
  refine ⟨fun ho => if_pos ho, fun ho hlong => ?_, fun ho hfit hfull => ?_, fun ho hfit hroom hfail => ?_⟩ <;>
    rw [execTxEnqueue_of_open ho]
  · have hlong : fitsLength payload = false := decide_eq_false (Nat.not_lt.mpr hlong)
    rw [State.enqueue, if_pos hlong]
    rfl
  · rw [State.enqueue, if_neg (by simp [fitsLength_of_lt hfit]), if_pos (s.queueFull_iff.2 hfull)]
    rfl
  · rw [State.enqueue, if_neg (by simp [fitsLength_of_lt hfit]), if_neg (mt s.queueFull_iff.1 hroom), hfail]
    exact ⟨_, rfl, rfl⟩

/-! ### The transmit side of every command (R175, R194, R196) -/

/-- `WIRE_OUT` and the sink's answers are unchanged. -/
def WireSame (s t : State) : Prop := t.wireOut = s.wireOut ∧ t.sinkAnswers = s.sinkAnswers

/-- `added` is what a command adds to the bytes to be sent: the frame of a TX_ENQUEUE that returned OK, or nothing. -/
def Enqueues (i : Instr) (t : State) (added : List Byte) : Prop :=
  added = [] ∨ ∃ type flags sidOp payload, i = .txEnqueue type flags sidOp payload ∧ t.cmdStatus = .ok ∧
    added = (enqueueHeader type flags sidOp payload).wireBytes ++ payload

/-- What a command other than TX_READY does to the queue: it tears the Connection down, or of an open Connection
adds at most an enqueued frame. -/
def QueueEnds (i : Instr) (s t : State) : Prop :=
  (t.connState = .closed ∧ t.txq = []) ∨
  (t.closes = s.closes ∧ (s.connState = .opened → ∃ added, t.unsent = s.unsent ++ added ∧ Enqueues i t added))

theorem QueueEnds.of_same {i : Instr} {s t : State} (hcloses : t.closes = s.closes) (hq : t.txq = s.txq) :
    QueueEnds i s t :=
  .inr ⟨hcloses, fun _ => ⟨[], by simp [State.unsent, hq], .inl rfl⟩⟩

theorem State.enqueue_txSide (type flags : Byte) (sidOp : BitVec 32) (payload : List Byte) (s : State) :
    WireSame s (s.enqueue type flags sidOp payload) ∧
    QueueEnds (.txEnqueue type flags sidOp payload) s (s.enqueue type flags sidOp payload) := by
  rcases State.enqueue_cases type flags sidOp payload s with
    ⟨_, he⟩ | ⟨_, _, he⟩ | ⟨_, _, _, he⟩ | ⟨_, _, _, he⟩ <;> rw [he]
  · exact ⟨⟨rfl, rfl⟩, .of_same rfl rfl⟩
  · exact ⟨⟨rfl, rfl⟩, .of_same rfl rfl⟩
  · exact ⟨⟨rfl, rfl⟩, .of_same rfl rfl⟩
  · refine ⟨⟨rfl, rfl⟩, .inr ⟨rfl, fun _ => ⟨_, ?_, .inr ⟨type, flags, sidOp, payload, rfl, rfl, rfl⟩⟩⟩⟩
    simp [State.unsent, TxEntry.unsent_ofRequest]

/-- Only TX_READY has to do with the sink; the other commands leave the wire alone. -/
theorem exec_txSide {i : Instr} {s t : State} (hne : i ≠ .txReady) (h : exec i s = .next t) :
    WireSame s t ∧ QueueEnds i s t := by
  cases i with
  | connOpen =>
    have hopen (ho : s.connState = .opened) : execConnOpen s = .fault .reopen := if_pos ho
    obtain rfl := execConnOpen_next h
    have hgrows (hcloses : s.connOpen.closes = s.closes) : QueueEnds .connOpen s s.connOpen :=
      .inr ⟨hcloses, fun ho => by cases (hopen ho).symm.trans h⟩
    rcases State.connOpen_cases s with ⟨_, he⟩ | ⟨_, _, he⟩ | ⟨_, _, _, he⟩ | ⟨_, _, _, he⟩ <;>
      exact ⟨by rw [he]; exact ⟨rfl, rfl⟩, hgrows (by rw [he]; rfl)⟩
  | connClose => rw [execConnClose_next h]; exact ⟨⟨rfl, rfl⟩, .inl ⟨rfl, rfl⟩⟩
  | hdrDecode hb => cases h; exact ⟨⟨rfl, rfl⟩, .of_same rfl rfl⟩
  | hdrEncode len type flags sidOp => cases h; exact ⟨⟨rfl, rfl⟩, .of_same rfl rfl⟩
  | rxReady =>
    rcases State.deliverRx_ends (execRxReady_next h).2 with ⟨hsame, _⟩ | ⟨r, u, rfl, _, hsame⟩ <;>
      obtain ⟨hwire, _, hsink, _, hcloses⟩ := hsame.outside
    · obtain ⟨_, _, _, _, _, hq, _⟩ := hsame.fields
      exact ⟨⟨hwire, hsink⟩, .of_same hcloses hq⟩
    · exact ⟨⟨hwire, hsink⟩, .inl ⟨rfl, rfl⟩⟩
  | dispatchDone v =>
    obtain ⟨_, _, rfl⟩ := execDispatchDone_next h
    cases v with
    | accept => exact ⟨⟨rfl, rfl⟩, .of_same rfl rfl⟩
    | fail => exact ⟨⟨rfl, rfl⟩, .inl ⟨rfl, rfl⟩⟩
    | reserved b => exact ⟨⟨rfl, rfl⟩, .of_same rfl rfl⟩
  | txEnqueue type flags sidOp payload =>
    obtain ⟨_, rfl⟩ := execTxEnqueue_next h
    exact s.enqueue_txSide type flags sidOp payload
  | txReady => exact absurd rfl hne

/-- What is on the wire stays, in a teardown too (R68). -/
theorem TxEnds.wire_prefix {s t : State} (h : TxEnds s t) : s.wireOut <+: t.wireOut := by
  rcases h with ⟨_, hw⟩ | ⟨r, u, rfl, _, _, hw⟩ <;> exact hw

/-- Settles O20: TX_READY adds to the wire, and the other commands leave it alone. -/
theorem onlyTxReadyWritesTheWire : Obligations.OnlyTxReadyWritesTheWire := by
  intro i s t h
  by_cases hi : i = .txReady
  · subst hi
    refine ⟨?_, fun hne => absurd rfl hne⟩
    obtain ⟨_, _, rfl | hdeliver⟩ := execTxReady_next h
    · exact List.prefix_rfl
    · exact (State.deliverTx_ends hdeliver).wire_prefix
  · obtain ⟨hsame, _⟩ := exec_txSide hi h
    exact ⟨by rw [hsame.1], fun _ => hsame⟩

/-- A TX_READY that does not tear down moves bytes from the front of the queue to the end of the wire. -/
theorem TxMove.order {s t : State} (h : TxMove s t) (ho : t.connState = .opened) :
    t.wireOut ++ t.unsent = s.wireOut ++ s.unsent := by
  obtain ⟨sent, _, ⟨r, u, rfl, _⟩ | ⟨_, hwire, hunsent, _⟩⟩ := h
  · cases ho
  · rw [hwire, hunsent, List.append_assoc]

/-- Wire and queue together grow by an enqueued frame only (R194). -/
theorem exec_order {i : Instr} {s t : State} (hs : s.Inv) (ho : s.connState = .opened) (h : exec i s = .next t)
    (hto : t.connState = .opened) :
    ∃ added, t.wireOut ++ t.unsent = s.wireOut ++ s.unsent ++ added ∧ Enqueues i t added := by
  by_cases hi : i = .txReady
  · subst hi
    refine ⟨[], ?_, .inl rfl⟩
    rw [List.append_nil]
    rcases execTxReady_moves hs h with rfl | hmove
    · rfl
    · exact hmove.order hto
  · obtain ⟨⟨hwire, _⟩, ⟨hclosed, _⟩ | ⟨_, hgrows⟩⟩ := exec_txSide hi h
    · cases hto.symm.trans hclosed
    · obtain ⟨added, hunsent, hadded⟩ := hgrows ho
      exact ⟨added, by rw [hwire, hunsent, List.append_assoc], hadded⟩

/-- Settles O45: taking a command from the port moves neither wire nor queue, and each command keeps their order. -/
theorem framesGoOutInEnqueueOrder : Obligations.FramesGoOutInEnqueueOrder := by
  intro s t hs ho h hto
  rcases step_cases h with ⟨_, rfl⟩ | ⟨_, _, _, rfl⟩ | ⟨i, rest, hdecode, hexec⟩
  · exact ⟨[], by simp, .inl rfl⟩
  · exact ⟨[], by simp [State.unsent], .inl rfl⟩
  · obtain ⟨added, hwire, hadded⟩ := exec_order (hs.setPort rest) ho hexec hto
    refine ⟨added, hwire, hadded.imp_right ?_⟩
    rintro ⟨type, flags, sidOp, payload, rfl, hok, hbytes⟩
    exact ⟨type, flags, sidOp, payload, rest, hdecode, hok, hbytes⟩

/-- Settles O46: only TX_READY can have written before its teardown, and it writes the next unsent bytes. -/
theorem teardownTruncatesTheWire : Obligations.TeardownTruncatesTheWire := by
  intro i s t hs h hcloses
  by_cases hi : i = .txReady
  · subst hi
    rcases execTxReady_moves hs h with rfl | ⟨sent, hpre, ⟨r, u, rfl, _, _, hwire⟩ | ⟨hsame, _⟩⟩
    · omega
    · exact ⟨rfl, sent, hwire, hpre⟩
    · have hkept : t.closes = s.closes := by rw [hsame]; rfl
      omega
  · obtain ⟨⟨hwire, _⟩, ⟨_, hq⟩ | ⟨hkept, _⟩⟩ := exec_txSide hi h
    · exact ⟨hq, [], by simpa using hwire, List.nil_prefix⟩
    · omega

/-! ### A header write (R182, R183) and a payload write (R185 to R188) -/

section Writes

variable {e : TxEntry} {s : State}

theorem headerPart_of_sent (h9 : 9 ≤ e.hdrSent.toNat) : headerPart e s = .go e s := if_pos h9

theorem headerPart_fatal (h9 : e.hdrSent.toNat < 9) (hm : s.params.txHdrMode = .fatal) :
    headerPart e s = headerWriteFatal e s := by
  rw [headerPart, if_neg (by omega), hm]

theorem headerPart_buffered (h9 : e.hdrSent.toNat < 9) (hm : s.params.txHdrMode = .buffered) :
    headerPart e s = headerWriteBuffered e s := by
  rw [headerPart, if_neg (by omega), hm]

theorem payloadPart_of_left (hx : e.xfer.toNat < e.hdr.len.toNat) : payloadPart e s = payloadWrite e s :=
  if_neg (by omega)

theorem TxEntry.Ok.hdrSent_zero (he : e.Ok .fatal) (h9 : e.hdrSent.toNat < 9) : e.hdrSent.toNat = 0 := by
  rcases he.whole rfl with h | h <;> omega

/-- Between steps an entry with its header sent has payload left (R55). -/
theorem TxEntry.Ok.xfer_lt {mode : TxHdrMode} (he : e.Ok mode) (h9 : e.hdrSent.toNat = 9) :
    e.xfer.toNat < e.hdr.len.toNat :=
  lt_of_le_of_ne he.xfer fun h => he.pending ⟨h9, BitVec.eq_of_toNat_eq h⟩

/-- `x` is what a write that offers `offered` bytes in `s` answers when none of them goes on the wire. -/
structure SendsNothing (offered : Nat) (s : State) (x : Flow TxEntry) : Prop where
  wouldBlock : s.writeAnswer = .wouldBlock → x = .ended (.next (s.afterWrite.setTxArmed true))
  error      : s.writeAnswer = .error → x = .ended (.next (s.afterWrite.teardown .txError))
  oversized  : ∀ k, s.writeAnswer = .accepted k → offered < k →
    x = .ended (.next (s.afterWrite.teardown .txOverflow))

theorem headerWriteFatal_sendsNothing (e : TxEntry) (s : State) : SendsNothing 9 s (headerWriteFatal e s) where
  wouldBlock h := by simp only [headerWriteFatal, h]
  error h := by simp only [headerWriteFatal, h]; rfl
  oversized k h hk := by simp only [headerWriteFatal, h]; exact if_pos hk

theorem headerWriteBuffered_sendsNothing (e : TxEntry) (s : State) :
    SendsNothing (9 - e.hdrSent.toNat) s (headerWriteBuffered e s) where
  wouldBlock h := by simp only [headerWriteBuffered, h]
  error h := by simp only [headerWriteBuffered, h]; rfl
  oversized k h hk := by simp only [headerWriteBuffered, h]; exact if_pos hk

theorem headerPart_sendsNothing (he : e.Ok s.params.txHdrMode) (h9 : e.hdrSent.toNat < 9) :
    SendsNothing (9 - e.hdrSent.toNat) s (headerPart e s) := by
  cases hm : s.params.txHdrMode with
  | fatal =>
    have hzero := TxEntry.Ok.hdrSent_zero (hm ▸ he) h9
    rw [headerPart_fatal h9 hm, hzero]
    exact headerWriteFatal_sendsNothing e s
  | buffered =>
    rw [headerPart_buffered h9 hm]
    exact headerWriteBuffered_sendsNothing e s

theorem payloadPart_sendsNothing {mode : TxHdrMode} (he : e.Ok mode) (hx : e.xfer.toNat < e.hdr.len.toNat) :
    SendsNothing (e.hdr.len.toNat - e.xfer.toNat) s (payloadPart e s) := by
  rw [payloadPart_of_left hx]
  refine ⟨fun ha => ?_, fun ha => ?_, fun k ha hk => ?_⟩ <;>
    rcases payloadWrite_cases he s with
      ⟨k', ha', hk', h⟩ | ⟨k', ha', hk', h⟩ | ⟨k', ha', hk', h⟩ | ⟨ha', h⟩ | ⟨ha', h⟩ <;>
    cases ha.symm.trans ha'
  · exact h
  · exact h
  · omega
  · exact h
  · omega

/-- The rest of the header is taken, in either mode (R182, R183). -/
theorem headerPart_finishes {k : Nat} (he : e.Ok s.params.txHdrMode) (ha : s.writeAnswer = .accepted k)
    (h9 : e.hdrSent.toNat < 9) (hk : e.hdrSent.toNat + k = 9) :
    headerPart e s = .go (e.withHdrSent 9)
      ((s.afterWrite.putWire (e.hdr.wireBytes.drop e.hdrSent.toNat)).setHead (e.withHdrSent 9)) := by
  cases hm : s.params.txHdrMode with
  | fatal =>
    have hzero := TxEntry.Ok.hdrSent_zero (hm ▸ he) h9
    obtain rfl : k = 9 := by omega
    rw [headerPart_fatal h9 hm, hzero, List.drop_zero]
    simp only [headerWriteFatal, ha]
    rfl
  | buffered =>
    rw [headerPart_buffered h9 hm]
    rcases headerWriteBuffered_cases e s h9 with
      ⟨k', ha', hk', h⟩ | ⟨k', ha', hk', h⟩ | ⟨k', ha', hk', h⟩ | ⟨ha', h⟩ | ⟨ha', h⟩ <;>
      cases ha.symm.trans ha'
    · exact h
    all_goals omega

/-- Part of the header is taken under BUFFERED (R183). -/
theorem headerWriteBuffered_partial {k : Nat} (ha : s.writeAnswer = .accepted k) (hk : e.hdrSent.toNat + k < 9) :
    headerWriteBuffered e s =
      .ended (.next (((s.afterWrite.putWire ((e.hdr.wireBytes.drop e.hdrSent.toNat).take k)).setHead
        (e.withHdrSent (e.hdrSent.toNat + k))).setTxArmed true)) := by
  simp only [headerWriteBuffered, ha]
  rw [if_neg (by omega), if_neg (by omega)]

/-- Part of the header is taken under FATAL (R182). -/
theorem headerWriteFatal_short {k : Nat} (ha : s.writeAnswer = .accepted k) (hk : k < 9) :
    headerWriteFatal e s =
      .ended (.next ((s.afterWrite.putWire (e.hdr.wireBytes.take k)).teardown .txShortHdr)) := by
  simp only [headerWriteFatal, ha]
  rw [if_neg (by omega), if_neg (by omega)]
  rfl

/-- The rest of the payload is taken (R185). -/
theorem payloadWrite_finishes {mode : TxHdrMode} {k : Nat} (he : e.Ok mode) (ha : s.writeAnswer = .accepted k)
    (hk : e.xfer.toNat + k = e.hdr.len.toNat) :
    payloadWrite e s = .go (e.withXfer e.hdr.len.toNat)
      ((s.afterWrite.putWire (e.payload.bytes.drop e.xfer.toNat)).setHead (e.withXfer e.hdr.len.toNat)) := by
  rcases payloadWrite_cases he s with
    ⟨k', ha', hk', h⟩ | ⟨k', ha', hk', h⟩ | ⟨k', ha', hk', h⟩ | ⟨ha', h⟩ | ⟨ha', h⟩ <;>
    cases ha.symm.trans ha'
  · exact h
  all_goals omega

/-- Part of the payload is taken (R188). -/
theorem payloadWrite_partial {mode : TxHdrMode} {k : Nat} (he : e.Ok mode) (ha : s.writeAnswer = .accepted k)
    (hk : e.xfer.toNat + k < e.hdr.len.toNat) :
    payloadWrite e s =
      .ended (.next (((s.afterWrite.putWire ((e.payload.bytes.drop e.xfer.toNat).take k)).setHead
        (e.withXfer (e.xfer.toNat + k))).setTxArmed true)) := by
  rcases payloadWrite_cases he s with
    ⟨k', ha', hk', h⟩ | ⟨k', ha', hk', h⟩ | ⟨k', ha', hk', h⟩ | ⟨ha', h⟩ | ⟨ha', h⟩ <;>
    cases ha.symm.trans ha'
  · omega
  · omega
  · exact h

end Writes

/-! ### The first write of a pass -/

section Pass

variable {e : TxEntry} {rest : List TxEntry} {s : State}

/-- The head of the queue is within its bounds. -/
theorem State.Inv.head_ok (hs : s.Inv) (hq : s.txq = e :: rest) : e.Ok s.params.txHdrMode :=
  hs.entries e (by simp [hq])

theorem State.setHead_of_cons (hq : s.txq = e :: rest) (e' : TxEntry) : s.setHead e' = s.setTxq (e' :: rest) := by
  rw [State.setHead, hq, List.tail_cons]

theorem txPass_of_headerEnded {o : Outcome} (h : headerPart e s = .ended o) : txPass (e :: rest) s = o := by
  rw [txPass, h]
  rfl

theorem txPass_of_payloadEnded {o : Outcome} (h9 : 9 ≤ e.hdrSent.toNat) (h : payloadPart e s = .ended o) :
    txPass (e :: rest) s = o := by
  rw [txPass, headerPart_of_sent h9]
  simp only [Flow.andThen, h]

/-- The first write of a pass offers header bytes or, once they are sent, payload bytes; what ends the write with
no byte taken ends the pass. -/
theorem txPass_of_firstWrite {o : Outcome} (he : e.Ok s.params.txHdrMode)
    (h : ∀ offered x, SendsNothing offered s x → x = .ended o) : txPass (e :: rest) s = o := by
  by_cases h9 : e.hdrSent.toNat < 9
  · exact txPass_of_headerEnded (h _ _ (headerPart_sendsNothing he h9))
  · have hsent : e.hdrSent.toNat = 9 := le_antisymm he.hdrSent (by omega)
    exact txPass_of_payloadEnded hsent.ge (h _ _ (payloadPart_sendsNothing he (he.xfer_lt hsent)))

end Pass

/-- Settles O47: both kinds of write compare the answer with what they offered before anything else. -/
theorem oversizedWriteTearsDown : Obligations.OversizedWriteTearsDown := fun _ _ k he ha =>
  ⟨fun h9 hk => ⟨(headerPart_sendsNothing he h9).oversized k ha hk, rfl⟩,
    fun hx hk => (payloadPart_sendsNothing he hx).oversized k ha hk⟩

/-- Settles O48: the write is short of the nine bytes offered. -/
theorem shortHeaderWriteIsFatal : Obligations.ShortHeaderWriteIsFatal := by
  intro s e rest k hen hq hm hsent ha hk
  have hpart := (headerPart_fatal (e := e) (s := s.txWriting) (by simp [hsent]) hm).trans (headerWriteFatal_short ha hk)
  rw [execTxReady_of_enabled hen, hq, txPass_of_headerEnded hpart]
  exact ⟨_, rfl, rfl, rfl, rfl, rfl, rfl, rfl⟩

theorem State.setTxArmed_self {s : State} {b : Bool} (h : s.txArmed = b) : s.setTxArmed b = s := by
  rw [State.setTxArmed, ← h]

/-- Settles O49: `TX_ARMED` was 1, so the would-block answer puts it back. -/
theorem writeAnswersWithoutBytes : Obligations.WriteAnswersWithoutBytes := by
  intro s e rest hs hen hq
  rw [execTxReady_of_enabled hen, hq]
  obtain ⟨_, harmed, _⟩ := hen
  have hrearm : s.txWriting.afterWrite.setTxArmed true = s.afterWrite.returnStatus .ok :=
    congrArg (fun u => u.afterWrite.returnStatus .ok) (State.setTxArmed_self harmed)
  refine ⟨fun ha => ?_, fun ha => ?_⟩
  · rw [← hrearm]
    exact txPass_of_firstWrite (s := s.txWriting) (hs.head_ok hq) fun _ _ h => h.wouldBlock ha
  · exact txPass_of_firstWrite (s := s.txWriting) (hs.head_ok hq) fun _ _ h => h.error ha

/-- Settles O50: the header stays incomplete, so the pass ends with the writer armed. -/
theorem bufferedHeaderWriteResumes : Obligations.BufferedHeaderWriteResumes := by
  intro s e rest k hs hen hq hm ha hk
  have hpart := (headerPart_buffered (s := s.txWriting) (by omega) hm).trans (headerWriteBuffered_partial ha hk)
  have hsent : (BitVec.ofNat 4 (e.hdrSent.toNat + k)).toNat = e.hdrSent.toNat + k := by
    rw [BitVec.toNat_ofNat, Nat.mod_eq_of_lt (by omega)]
  rw [execTxReady_of_enabled hen, hq, txPass_of_headerEnded hpart]
  exact ⟨_, e.withHdrSent (e.hdrSent.toNat + k), rfl, by simp [hq], rfl, rfl, rfl, hsent, rfl, rfl, rfl⟩

/-- Settles O52: payload stays unsent, so the pass ends with the writer armed. -/
theorem partialPayloadWriteKeepsHead : Obligations.PartialPayloadWriteKeepsHead := by
  intro s e rest k hs hen hq h9 ha hk
  have hpart := (payloadPart_of_left (s := s.txWriting) (by omega)).trans
    (payloadWrite_partial (hs.head_ok hq) ha hk)
  have hxfer : (BitVec.ofNat 24 (e.xfer.toNat + k)).toNat = e.xfer.toNat + k := by
    rw [BitVec.toNat_ofNat, Nat.mod_eq_of_lt (hk.trans e.hdr.len.isLt)]
  rw [execTxReady_of_enabled hen, hq, txPass_of_payloadEnded (by simp [h9]) hpart]
  exact ⟨_, e.withXfer (e.xfer.toNat + k), rfl, by simp [hq], rfl, rfl, rfl, hxfer, rfl, rfl, rfl⟩

/-- Settles O51: after the header write the pass stands where a pass on the head with its header sent begins. -/
theorem headerWriteGoesOnToPayload : Obligations.HeaderWriteGoesOnToPayload := by
  intro s e rest k hs hen hq ha hpos hk
  have hpart := headerPart_finishes (s := s.txWriting) (hs.head_ok hq) ha (by omega) hk
  have hlater : enabled .txReady { s.afterWrite with
      txq := { e with hdrSent := 9#4 } :: rest
      wireOut := s.wireOut ++ e.hdr.wireBytes.drop e.hdrSent.toNat } := hen
  rw [State.setHead_of_cons (s := s.txWriting.afterWrite.putWire _) hq] at hpart
  rw [execTxReady_of_enabled hen, execTxReady_of_enabled hlater, hq, txPass, hpart, txPass,
    headerPart_of_sent (le_refl 9)]
  rfl

/-! ### Completing the head (R190, R191) -/

/-- The sink has taken `bs`; the queue is now `q` and the sink's answers `later`. -/
def State.sent (q : List TxEntry) (bs : List Byte) (later : List WriteAnswer) (s : State) : State :=
  { s with txq := q, wireOut := s.wireOut ++ bs, sinkAnswers := later }

/-- What `complete_head()` does once the head has been removed. -/
def afterHead (rest : List TxEntry) (s : State) : Outcome :=
  if rest.isEmpty then .next s
  else match s.params.txContinue with
    | .nextNotify => .next (s.setTxArmed true)
    | .samePass   => txPass rest s

theorem txPass_cons (e : TxEntry) (rest : List TxEntry) (s : State) :
    txPass (e :: rest) s = (headerPart e s).andThen fun e₁ s₁ =>
      (payloadPart e₁ s₁).andThen fun _ s₂ => afterHead rest (s₂.setTxq rest) := rfl

theorem afterHead_nil (s : State) : afterHead [] s = .next s := rfl

theorem afterHead_nextNotify {rest : List TxEntry} {s : State} (hne : rest ≠ [])
    (hm : s.params.txContinue = .nextNotify) : afterHead rest s = .next (s.setTxArmed true) := by
  rw [afterHead, if_neg (by simpa using hne), hm]

theorem afterHead_samePass {rest : List TxEntry} {s : State} (hne : rest ≠ [])
    (hm : s.params.txContinue = .samePass) : afterHead rest s = txPass rest s := by
  rw [afterHead, if_neg (by simpa using hne), hm]

section TakeAll

variable {e : TxEntry} {rest : List TxEntry} {s : State} {later : List WriteAnswer}

/-- A write whose answer is listed uses up that answer only. -/
theorem State.putWire_afterWrite_of_cons {a : WriteAnswer} (hq : s.txq = e :: rest)
    (hsink : s.sinkAnswers = a :: later) (bs : List Byte) (e' : TxEntry) :
    (s.afterWrite.putWire bs).setHead e' = s.sent (e' :: rest) bs later := by
  simp [State.afterWrite, State.putWire, State.setHead, State.setTxq, State.sent, nextFree, hq, hsink]

theorem State.writeAnswer_of_cons {a : WriteAnswer} (hsink : s.sinkAnswers = a :: later) : s.writeAnswer = a := by
  simp [State.writeAnswer, hsink]

theorem State.sent_nothing (hq : s.txq = e :: rest) (hsink : s.sinkAnswers = later) :
    s.sent (e :: rest) [] later = s := by
  simp [State.sent, ← hq, ← hsink]

/-- The answers with which the sink takes what is left of the header. -/
def TxEntry.takeHeader (e : TxEntry) : List WriteAnswer :=
  if e.hdrSent.toNat < 9 then [.accepted (9 - e.hdrSent.toNat)] else []

/-- The answers with which the sink takes what is left of the payload. -/
def TxEntry.takePayload (e : TxEntry) : List WriteAnswer :=
  if e.xfer.toNat < e.hdr.len.toNat then [.accepted (e.hdr.len.toNat - e.xfer.toNat)] else []

theorem TxEntry.takeAll_eq (e : TxEntry) : e.takeAll = e.takeHeader ++ e.takePayload := rfl

theorem headerPart_takeHeader (he : e.Ok s.params.txHdrMode) (hq : s.txq = e :: rest)
    (hsink : s.sinkAnswers = e.takeHeader ++ later) :
    headerPart e s = .go (e.withHdrSent 9)
      (s.sent (e.withHdrSent 9 :: rest) (e.hdr.wireBytes.drop e.hdrSent.toNat) later) := by
  by_cases h9 : e.hdrSent.toNat < 9
  · rw [TxEntry.takeHeader, if_pos h9, List.singleton_append] at hsink
    rw [headerPart_finishes he (State.writeAnswer_of_cons hsink) h9 (by omega),
      State.putWire_afterWrite_of_cons hq hsink]
  · rw [TxEntry.takeHeader, if_neg h9, List.nil_append] at hsink
    have hsent : e.hdrSent = 9#4 := BitVec.eq_of_toNat_eq (le_antisymm he.hdrSent (Nat.not_lt.mp h9))
    have hhead : e.withHdrSent 9 = e := by rw [TxEntry.withHdrSent, ← hsent]
    rw [headerPart_of_sent (by omega), hhead, List.drop_of_length_le (by simp; omega), State.sent_nothing hq hsink]

/-- With its header sent and payload left, an entry stays within its bounds. -/
theorem TxEntry.Ok.withHdrSent {mode : TxHdrMode} (he : e.Ok mode) (hx : e.xfer.toNat < e.hdr.len.toNat) :
    (e.withHdrSent 9).Ok mode where
  size    := he.size
  filled  := he.filled
  hdrSent := le_rfl
  xfer    := he.xfer
  order   := fun _ => rfl
  pending := fun ⟨_, h⟩ => hx.ne (congrArg BitVec.toNat h)
  whole   := fun _ => .inr rfl

theorem payloadPart_takePayload {mode : TxHdrMode} (he : e.Ok mode) (hq : s.txq = e.withHdrSent 9 :: rest)
    (hsink : s.sinkAnswers = e.takePayload ++ later) :
    ∃ e', payloadPart (e.withHdrSent 9) s =
      .go e' (s.sent (e' :: rest) (e.payload.bytes.drop e.xfer.toNat) later) := by
  by_cases hx : e.xfer.toNat < e.hdr.len.toNat
  · rw [TxEntry.takePayload, if_pos hx, List.singleton_append] at hsink
    have hwrite := payloadWrite_finishes (he.withHdrSent hx) (State.writeAnswer_of_cons hsink)
      (Nat.add_sub_cancel' he.xfer)
    rw [State.putWire_afterWrite_of_cons hq hsink] at hwrite
    exact ⟨_, (payloadPart_of_left (e := e.withHdrSent 9) hx).trans hwrite⟩
  · rw [TxEntry.takePayload, if_neg hx, List.nil_append] at hsink
    have hnone : e.payload.bytes.drop e.xfer.toNat = [] :=
      List.drop_of_length_le (by rw [Buffer.bytes_length he.filled]; omega)
    refine ⟨e.withHdrSent 9, ?_⟩
    rw [hnone, State.sent_nothing hq hsink]
    exact if_pos (Nat.not_lt.mp hx)

/-- A sink that takes all that is left of the head completes it (R190). -/
theorem txPass_takeAll (he : e.Ok s.params.txHdrMode) (hq : s.txq = e :: rest)
    (hsink : s.sinkAnswers = e.takeAll ++ later) :
    txPass (e :: rest) s = afterHead rest (s.sent rest e.unsent later) := by
  rw [TxEntry.takeAll_eq, List.append_assoc] at hsink
  obtain ⟨e', hpayload⟩ := payloadPart_takePayload
    (s := s.sent (e.withHdrSent 9 :: rest) (e.hdr.wireBytes.drop e.hdrSent.toNat) (e.takePayload ++ later))
    he rfl rfl
  rw [txPass_cons, headerPart_takeHeader he hq hsink]
  simp only [Flow.andThen, hpayload]
  simp only [State.sent, State.setTxq, TxEntry.unsent, List.append_assoc]

end TakeAll

/-- Settles O43: after the head the queue is empty, or NEXT_NOTIFY arms the writer for the successor. -/
theorem finishedHeadIsReleased : Obligations.FinishedHeadIsReleased := by
  intro s e rest later hs hen hq hsink hnext
  rw [execTxReady_of_enabled hen, hq, txPass_takeAll (s := s.txWriting) (hs.head_ok hq) hq hsink]
  cases rest with
  | nil => rfl
  | cons e' rest =>
    have hm : s.params.txContinue = .nextNotify := hnext.resolve_left (List.cons_ne_nil e' rest)
    exact afterHead_nextNotify (List.cons_ne_nil e' rest) hm

/-- Settles O44: the successor's pass begins in the state in which its own TX_READY would begin it. -/
theorem samePassGoesOnWithSuccessor : Obligations.SamePassGoesOnWithSuccessor := by
  intro s e rest later hs hen hq hsink hne hm
  have hlater : enabled .txReady (s.sent rest e.unsent later) := hen
  have hpass := execTxReady_of_enabled hlater
  rw [execTxReady_of_enabled hen, hq, txPass_takeAll (s := s.txWriting) (hs.head_ok hq) hq hsink,
    afterHead_samePass (s := s.txWriting.sent rest e.unsent later) hne hm]
  exact hpass.symm

end Sys2Proof.Machine

/-! The Connection's life (43_connection.md): what CONN_OPEN and CONN_CLOSE answer when they complete. -/

namespace Sys2Proof.Machine

/-- A block that is not open runs the draws of CONN_OPEN (R210). -/
theorem execConnOpen_of_notOpen {s : State} (hc : s.connState ≠ .opened) : exec .connOpen s = .next s.connOpen :=
  if_neg hc

/-- The last outcome of the draws: all three answer ok (R212). -/
theorem State.connOpen_of_draws {s : State} (ha : s.allocAnswer = .ok) (hr : s.afterAlloc.registerAnswer = .ok)
    (hw : s.afterAlloc.afterRegister.registerAnswer = .ok) :
    s.connOpen = s.afterAlloc.afterRegister.afterRegister.openConnection.returnStatus .ok := by
  simp only [State.connOpen, ha, hr, hw]

/-- An open block that is not dispatching is torn down (R214). -/
theorem execConnClose_of_notDispatching {s : State} (ho : s.connState = .opened)
    (hp : ∀ f, s.rxPhase ≠ .dispatching f) :
    exec .connClose s = .next ((s.returnStatus .ok).teardown .hostClose) := by
  obtain ⟨t, ht⟩ := execConnClose_completes ho hp
  rwa [execConnClose_next ht] at ht

/-- Settles O24: each outcome of the draws gives one status, and a failed one has only used answers. -/
theorem connOpenFailureChangesNothing : Obligations.ConnOpenFailureChangesNothing := by
  intro s hc
  refine ⟨s.connOpen, execConnOpen_of_notOpen hc, ?_⟩
  rcases s.connOpen_cases with ⟨ha, he⟩ | ⟨ha, _, he⟩ | ⟨ha, _, _, he⟩ | ⟨ha, hr, hw, he⟩ <;> rw [he]
  · exact ⟨fun _ => rfl, by simp [ha], fun _ => rfl⟩
  · exact ⟨by simp [ha], fun _ _ => rfl, fun _ => rfl⟩
  · exact ⟨by simp [ha], fun _ _ => rfl, fun _ => rfl⟩
  · exact ⟨by simp [ha], by simp [hr, hw], fun hne => absurd rfl hne⟩

/-- Settles O23: the three draws use answers alone, and `openConnection` writes R57's column. -/
theorem connOpenStartsConnection : Obligations.ConnOpenStartsConnection := by
  intro s hc ha hr hw
  refine ⟨s.connOpen, execConnOpen_of_notOpen hc, ?_⟩
  rw [State.connOpen_of_draws ha hr hw]
  rfl

/-- Settles O27: the full state is the teardown with HOST_CLOSE behind status OK. -/
theorem connCloseTearsDown : Obligations.ConnCloseTearsDown :=
  fun _ ho hp => execConnClose_of_notDispatching ho hp

end Sys2Proof.Machine

/-! The environment (44_env_dispatch_settings.md): the settings maps and their records, what one TX_ENQUEUE answers to
its issuer, and then the SETTINGS handler, the consumer and `settings_send`, each said once per case. -/

namespace Sys2Proof.Machine

/-! ### Settings maps and records (R236, R241; 30_encoding.md R100) -/

/-- A set id reads as its new value, and every other id as before; the ids need not be sorted for it. -/
theorem SettingsMap.get_set (m : SettingsMap) (i id : BitVec 16) (v : BitVec 32) :
    (m.set i v).get id = if i = id then some v else m.get id := by
  induction m with
  | nil => rfl
  | cons entry rest ih =>
    obtain ⟨a, b⟩ := entry
    rw [SettingsMap.set]
    split
    · rfl
    · split
      next hia =>
        subst hia
        simp only [SettingsMap.get]
        split <;> rfl
      next hia =>
        simp only [SettingsMap.get, ih]
        by_cases hid : i = id
        · rw [if_pos hid, if_neg (hid ▸ Ne.symm hia), if_pos hid]
        · rw [if_neg hid, if_neg hid]

/-- The last record of an id wins. -/
theorem SettingsMap.get_setAll (m : SettingsMap) (records : List (BitVec 16 × BitVec 32)) (id : BitVec 16) :
    (m.setAll records).get id =
      ((records.reverse.find? fun r => r.1 == id).map Prod.snd).or (m.get id) := by
  induction records using List.reverseRecOn with
  | nil => rfl
  | append_singleton records r ih =>
    have hlast : m.setAll (records ++ [r]) = (m.setAll records).set r.1 r.2 := by simp [SettingsMap.setAll]
    rw [hlast, SettingsMap.get_set, List.reverse_concat]
    by_cases hr : r.1 = id
    · rw [if_pos hr, List.find?_cons_of_pos (by simpa using hr)]
      rfl
    · rw [if_neg hr, List.find?_cons_of_neg (by simpa using hr), ih]

theorem be16_extract (v : BitVec 16) : v.extractLsb' 8 8 ++ v.extractLsb' 0 8 = v := by
  apply BitVec.eq_of_toNat_eq
  simp only [toNat_append_eq_add, BitVec.extractLsb'_toNat, Nat.shiftRight_eq_div_pow]
  omega

theorem recordBytes_length (records : List (BitVec 16 × BitVec 32)) :
    (recordBytes records).length = 6 * records.length := by
  induction records with
  | nil => rfl
  | cons r records ih =>
    have hcons : (recordBytes (r :: records)).length = 6 + (recordBytes records).length :=
      (List.length_append (as := be16Bytes r.1 ++ be32Bytes r.2))
    rw [hcons, ih, List.length_cons]
    omega

/-- The handler reads back the records that a SETTINGS frame was made of (30_encoding.md R86). -/
theorem parseRecords_recordBytes (records : List (BitVec 16 × BitVec 32)) :
    parseRecords (recordBytes records) = records := by
  induction records with
  | nil => rfl
  | cons r records ih =>
    have hcons : parseRecords (recordBytes (r :: records)) =
        (r.1.extractLsb' 8 8 ++ r.1.extractLsb' 0 8,
          be32 (r.2.extractLsb' 24 8) (r.2.extractLsb' 16 8) (r.2.extractLsb' 8 8) (r.2.extractLsb' 0 8)) ::
          parseRecords (recordBytes records) := rfl
    rw [hcons, ih, be16_extract, be32_extract]

/-! ### The answer to a TX_ENQUEUE -/

/-- What TX_ENQUEUE asks for before it appends (R171). -/
def State.Accepts (payload : List Byte) (s : State) : Prop :=
  payload.length < 2 ^ 24 ∧ s.queueFull = false ∧ s.allocAnswer = .ok

/-- TX_ENQUEUE returns OK exactly if it appends, and without OK the queue stays as it was. -/
theorem State.enqueue_accepted_or_refused (type flags : Byte) (sidOp : BitVec 32) (payload : List Byte)
    (s : State) :
    (s.Accepts payload ∧ (s.enqueue type flags sidOp payload).cmdStatus = .ok ∧
      (s.enqueue type flags sidOp payload).txq = s.txq ++ [TxEntry.ofRequest type flags sidOp payload]) ∨
    (¬ s.Accepts payload ∧ (s.enqueue type flags sidOp payload).cmdStatus ≠ .ok ∧
      (s.enqueue type flags sidOp payload).txq = s.txq) := by
  rcases s.enqueue_cases type flags sidOp payload with
    ⟨hlong, he⟩ | ⟨_, hfull, he⟩ | ⟨_, _, hfail, he⟩ | ⟨hfit, hroom, hok, he⟩ <;> rw [he]
  · exact .inr ⟨fun ⟨hfit, _⟩ => of_decide_eq_false hlong hfit, by simp, rfl⟩
  · exact .inr ⟨fun ⟨_, hroom, _⟩ => by simp [hfull] at hroom, by simp, rfl⟩
  · exact .inr ⟨fun ⟨_, _, hok⟩ => by simp [hfail] at hok, by simp, rfl⟩
  · exact .inl ⟨⟨of_decide_eq_true hfit, hroom, hok⟩, rfl, rfl⟩

/-- A full queue or a failing allocator refuses every payload. -/
theorem State.not_accepts {payload : List Byte} {s : State} (h : s.queueFull = true ∨ s.allocAnswer = .fail) :
    ¬ s.Accepts payload := by
  rintro ⟨_, hroom, hok⟩
  rcases h with hfull | hfail
  · simp [hfull] at hroom
  · simp [hfail] at hok

theorem State.enqueue_tooLong {payload : List Byte} (hlong : 2 ^ 24 ≤ payload.length) (type flags : Byte)
    (sidOp : BitVec 32) (s : State) : s.enqueue type flags sidOp payload = s.returnStatus .errTooLong :=
  if_pos (decide_eq_false (Nat.not_lt.mpr hlong))

/-! ### The SETTINGS handler (R237 to R243) -/

/-- The header of a SETTINGS frame that R237 or R238 rejects. -/
def Header.BadSettings (h : Header) : Prop :=
  (ackFlag h.flags = false ∧ h.len.toNat % 6 ≠ 0) ∨ (ackFlag h.flags = true ∧ h.len.toNat ≠ 0) ∨ h.sid.toNat ≠ 0

theorem settingsHandler_malformed {fr : DispatchedFrame} (h : fr.hdr.BadSettings) (y : System) :
    settingsHandler fr y = .next (y, .fail) := by
  rcases h with hlen | ⟨hack, hlen⟩ | hsid
  · exact if_pos hlen
  · have hlen : fr.hdr.len ≠ 0#24 := fun h0 => hlen (by rw [h0]; rfl)
    simp [settingsHandler, hack, hlen]
  · have hsid : fr.hdr.sid ≠ 0#31 := fun h0 => hsid (by rw [h0]; rfl)
    simp [settingsHandler, hsid]

theorem settingsHandler_ack {fr : DispatchedFrame} (h : ¬ fr.hdr.BadSettings)
    (hack : ackFlag fr.hdr.flags = true) (y : System) :
    settingsHandler fr y = .next ({ y with env := y.env.confirm }, .accept) := by
  simp only [Header.BadSettings, not_or, not_and, not_not] at h
  obtain ⟨_, hlen, hsid⟩ := h
  have hlen : fr.hdr.len = 0#24 := BitVec.eq_of_toNat_eq (hlen hack)
  have hsid : fr.hdr.sid = 0#31 := BitVec.eq_of_toNat_eq hsid
  simp [settingsHandler, hack, hlen, hsid]

theorem settingsHandler_records {fr : DispatchedFrame} (h : ¬ fr.hdr.BadSettings)
    (hack : ackFlag fr.hdr.flags = false) (y : System) :
    settingsHandler fr y =
      System.enqueueThen settingsAck { y with env := y.env.storeRemote (parseRecords fr.payload) }
        fun y' c => .next (y', verdictOf c) := by
  simp only [Header.BadSettings, not_or, not_and, not_not] at h
  obtain ⟨hlen, _, hsid⟩ := h
  have hsid : fr.hdr.sid = 0#31 := BitVec.eq_of_toNat_eq hsid
  simp [settingsHandler, hack, hlen hack, hsid]

theorem System.enqueueThen_of_open {y : System} (ho : y.block.connState = .opened) (type flags : Byte)
    (sidOp : BitVec 32) (payload : List Byte) (k : System → CmdStatus → HandlerOutcome) :
    y.enqueueThen (.txEnqueue type flags sidOp payload) k =
      k { y with block := y.block.enqueue type flags sidOp payload }
        (y.block.enqueue type flags sidOp payload).cmdStatus := by
  rw [System.enqueueThen, execTxEnqueue_of_open ho]

/-- Settles O54: the records are stored whatever becomes of the ACK, and the ACK's TX_ENQUEUE alone gives the verdict. -/
theorem settingsAreStoredAndAcknowledged : Obligations.SettingsAreStoredAndAcknowledged := by
  intro fr records y hack hsid hpayload hlen ho
  have hgood : ¬ fr.hdr.BadSettings := by
    rintro (⟨_, hbad⟩ | ⟨hbad, _⟩ | hbad)
    · omega
    · simp [hack] at hbad
    · exact hbad hsid
  have hrun : settingsHandler fr y = .next
      (⟨y.block.enqueue settingsType 0x01#8 0#32 [], y.env.storeRemote records⟩,
        verdictOf (y.block.enqueue settingsType 0x01#8 0#32 []).cmdStatus) := by
    rw [settingsHandler_records hgood hack, hpayload, parseRecords_recordBytes]
    exact System.enqueueThen_of_open (y := { y with env := y.env.storeRemote records }) ho _ _ _ _ _
  obtain ⟨⟨hwire, _⟩, _⟩ := y.block.enqueue_txSide settingsType 0x01#8 0#32 []
  have hget (id : BitVec 16) : (y.env.remote.setAll records).get id =
      match records.reverse.find? fun r => r.1 == id with
      | some r => some r.2
      | none   => y.env.remote.get id := by
    rw [SettingsMap.get_setAll]
    cases records.reverse.find? fun r => r.1 == id <;> rfl
  refine ⟨_, _, hrun, hwire, hget, rfl, rfl, rfl, rfl, ?_⟩
  rcases y.block.enqueue_accepted_or_refused settingsType 0x01#8 0#32 [] with
    ⟨haccepts, hok, hq⟩ | ⟨hrefused, hok, hq⟩
  · exact ⟨fun _ _ => ⟨if_pos hok, _, hq, rfl, rfl⟩, fun hfail => absurd haccepts (State.not_accepts hfail)⟩
  · exact ⟨fun hroom halloc => absurd ⟨Nat.two_pow_pos 24, hroom, halloc⟩ hrefused, fun _ => ⟨if_neg hok, hq⟩⟩

/-- Settles O55: of a well-formed ACK the handler only runs `Env.confirm`. -/
theorem settingsAckConfirmsPending : Obligations.SettingsAckConfirmsPending := by
  intro fr y hinv hack hlen hsid
  have hgood : ¬ fr.hdr.BadSettings := by simp [Header.BadSettings, hack, hlen, hsid]
  refine ⟨_, settingsHandler_ack hgood hack y, rfl, fun hnone => if_pos hnone, fun hsome => ?_⟩
  have hwaiting : y.env.localHs = .awaitingAck := hinv.2 hsome
  have hne : y.env.outstanding ≠ 0 := by omega
  simp only [Env.confirm, if_neg hne, hwaiting]
  refine ⟨trivial, Nat.sub_add_cancel hsome, trivial, trivial, ?_⟩
  by_cases hlast : y.env.outstanding = 1 <;> simp [hlast]

/-! ### The consumer (R231 to R234) -/

theorem System.consume_of_handled {y y' : System} {f : RxFrame} {fr : DispatchedFrame} {v : Verdict}
    (hp : y.block.rxPhase = .dispatching f) (hfr : y.block.dispatched.getLast? = some fr)
    (hrun : runHandler fr y = .next (y', v)) :
    y.consume = y'.afterBlock (exec (.dispatchDone v) y'.block) := by
  simp only [System.consume, hp, hfr, hrun]

/-- Settles O56: no handler runs, and the accepting verdict is R150's. -/
theorem unknownTypeIsDiscarded : Obligations.UnknownTypeIsDiscarded := by
  intro y f fr ho hp hfr htype
  rw [System.consume_of_handled hp hfr (if_pos htype), execDispatchDone_of_dispatching ho hp]
  simp [System.afterBlock, Env.follow, State.verdict, State.returnStatus, State.setRxPhase, State.setRxArmed]

/-- Settles O57: the handler fails before it does anything, and the environment follows the teardown. -/
theorem malformedSettingsTearDown : Obligations.MalformedSettingsTearDown := by
  intro y f fr ho hp hfr htype hmem hbad
  have hrun : runHandler fr y = .next (y, .fail) := by
    rw [runHandler, if_neg (by simpa [htype] using hmem), if_pos (show fr.hdr.type = settingsType from htype),
      settingsHandler_malformed hbad]
  rw [System.consume_of_handled hp hfr hrun, execDispatchDone_of_dispatching ho hp]
  exact ⟨_, rfl, rfl, rfl, rfl, rfl, rfl, if_pos (Nat.succ_ne_self _).symm⟩

/-! ### `settings_send` (R246) -/

theorem System.settingsSend_of_open {y : System} (ho : y.block.connState = .opened)
    (records : List (BitVec 16 × BitVec 32)) :
    y.settingsSend records =
      if (y.block.enqueue settingsType 0x00#8 0#32 (recordBytes records)).cmdStatus = .ok then
        .next (⟨y.block.enqueue settingsType 0x00#8 0#32 (recordBytes records), y.env.sent records⟩, true)
      else .next (⟨y.block.enqueue settingsType 0x00#8 0#32 (recordBytes records), y.env⟩, false) := by
  rw [System.settingsSend, settingsSendCommand, execTxEnqueue_of_open ho]

/-- Settles O58: TX_ENQUEUE takes the frame or refuses it, and only the first moves the environment. -/
theorem settingsSendAwaitsAck : Obligations.SettingsSendAwaitsAck := by
  intro records y ho
  have hexec := execTxEnqueue_of_open ho settingsType 0x00#8 0#32 (recordBytes records)
  have hlen := recordBytes_length records
  rw [System.settingsSend_of_open ho]
  rcases y.block.enqueue_accepted_or_refused settingsType 0x00#8 0#32 (recordBytes records) with
    ⟨haccepts, hok, hq⟩ | ⟨hrefused, hok, hq⟩
  · have ⟨hfit, _⟩ := haccepts
    obtain ⟨_, hbytes⟩ := Buffer.ofBytes_filled (recordBytes records)
    refine ⟨_, _, if_pos hok, hexec, by simp [hok], fun _ _ _ => rfl,
      fun hfail => absurd haccepts (State.not_accepts hfail), fun hlong => by omega, by simp, fun _ => ?_⟩
    exact ⟨_, hq, rfl, rfl, rfl, (toNat_enqueueHeader_len hfit _ _ _).trans hlen, hbytes, rfl, rfl, rfl, rfl,
      fun id => (SettingsMap.get_setAll [] records id).trans Option.or_none⟩
  · refine ⟨_, _, if_neg hok, hexec, by simp [hok], fun hfit hroom halloc => ?_, fun _ => rfl, fun hlong => ?_,
      fun _ => ⟨rfl, hq⟩, by simp⟩
    · exact absurd ⟨hlen ▸ hfit, hroom, halloc⟩ hrefused
    · exact ⟨rfl, by simp [State.enqueue_tooLong (hlen.symm ▸ hlong)]⟩

/-! ### The handshake's invariant (R235) -/

theorem Env.atOpen_inv (calls : Nat) : (Env.atOpen calls).Inv := by simp [Env.Inv, Env.atOpen]

theorem Env.sent_inv (records : List (BitVec 16 × BitVec 32)) (e : Env) : (e.sent records).Inv := by
  simp [Env.Inv, Env.sent]

theorem Env.Inv.confirm {e : Env} (h : e.Inv) : e.confirm.Inv := by
  unfold Env.confirm
  split
  · exact h
  · unfold Env.Inv at h ⊢
    by_cases hlast : e.outstanding = 1
    · simp [hlast]
    · rw [if_neg hlast, h]
      show 0 < e.outstanding ↔ 0 < e.outstanding - 1
      omega

theorem Env.Inv.follow {e : Env} (h : e.Inv) (before after : State) : (e.follow before after).Inv := by
  unfold Env.follow
  split
  · exact Env.atOpen_inv _
  · split
    · exact Env.atOpen_inv _
    · exact h

theorem System.afterBlock_inv {y y' : System} {o : Outcome} (hy : y.env.Inv) (h : y.afterBlock o = .next y') :
    y'.env.Inv := by
  cases o <;> cases h
  exact hy.follow _ _

/-- A handler goes on from its TX_ENQUEUE with the environment it had. -/
theorem System.enqueueThen_next {i : Instr} {y : System} {k : System → CmdStatus → HandlerOutcome}
    {r : System × Verdict} (h : y.enqueueThen i k = .next r) :
    ∃ b, k { y with block := b } b.cmdStatus = .next r := by
  unfold System.enqueueThen at h
  split at h
  · exact ⟨_, h⟩
  · cases h
  · cases h

theorem System.enqueueAll_env (requests : List FrameRequest) : ∀ {y y' : System} {v : Verdict},
    System.enqueueAll requests y = .next (y', v) → y'.env = y.env := by
  induction requests with
  | nil => intro y y' v h; cases h; rfl
  | cons r rs ih =>
    intro y y' v h
    obtain ⟨b, hrest⟩ := System.enqueueThen_next h
    exact ih (y := { y with block := b }) hrest

theorem settingsHandler_inv {fr : DispatchedFrame} {y y' : System} {v : Verdict} (hy : y.env.Inv)
    (h : settingsHandler fr y = .next (y', v)) : y'.env.Inv := by
  by_cases hbad : fr.hdr.BadSettings
  · rw [settingsHandler_malformed hbad] at h
    cases h; exact hy
  · cases hack : ackFlag fr.hdr.flags with
    | true =>
      rw [settingsHandler_ack hbad hack] at h
      cases h; exact hy.confirm
    | false =>
      rw [settingsHandler_records hbad hack] at h
      obtain ⟨_, hrest⟩ := System.enqueueThen_next h
      cases hrest; exact hy

theorem otherHandler_inv {y y' : System} {v : Verdict} (hy : y.env.Inv) (h : otherHandler y = .next (y', v)) :
    y'.env.Inv := by
  unfold otherHandler at h
  split at h <;> cases h
  rw [System.enqueueAll_env _ ‹_›]
  exact hy

theorem runHandler_inv {fr : DispatchedFrame} {y y' : System} {v : Verdict} (hy : y.env.Inv)
    (h : runHandler fr y = .next (y', v)) : y'.env.Inv := by
  unfold runHandler at h
  split at h
  · cases h; exact hy
  · split at h
    · exact settingsHandler_inv hy h
    · exact otherHandler_inv hy h

theorem System.consume_inv {y y' : System} (hy : y.env.Inv) (h : y.consume = .next y') : y'.env.Inv := by
  unfold System.consume at h
  split at h
  · split at h
    · exact System.afterBlock_inv (runHandler_inv hy ‹_›) h
    · cases h
    · cases h
  · cases h

theorem System.settingsSend_inv {records : List (BitVec 16 × BitVec 32)} {y y' : System} {ok : Bool}
    (hy : y.env.Inv) (h : y.settingsSend records = .next (y', ok)) : y'.env.Inv := by
  unfold System.settingsSend at h
  split at h
  · split at h <;> cases h
    · exact y.env.sent_inv records
    · exact hy
  · cases h
  · cases h

theorem System.runLine_inv {line : String} {y y' : System} (hy : y.env.Inv)
    (h : y.runLine line = some (.next y')) : y'.env.Inv := by
  unfold System.runLine at h
  split at h
  · cases h
  · split at h <;> cases h
    exact System.settingsSend_inv (y := { y with block := y.block.offer _ }) hy ‹_›
  · exact System.afterBlock_inv hy (Option.some.inj h)

/-- Settles O59: a new Connection begins Idle, and each move of the system only confirms, sends or starts
anew. -/
theorem handshakeStateMatchesOutstanding : Obligations.HandshakeStateMatchesOutstanding := fun _ hy =>
  ⟨fun _ h => System.afterBlock_inv hy h, fun _ h => System.consume_inv hy h,
    fun _ _ _ h => System.settingsSend_inv hy h, fun _ _ h => System.runLine_inv hy h⟩

end Sys2Proof.Machine

/-! Exceptions (60_exceptions.md): what a teardown does and which commands make one, who reads from the source, and
several blocks beside each other. -/

namespace Sys2Proof.Machine

/-! ### What CONN_OPEN and TX_ENQUEUE leave alone (43_connection.md R210; 42_transmit.md R170) -/

/-- The receive stream and the source's answers are unchanged. -/
def SourceSame (s t : State) : Prop := t.rxTaken = s.rxTaken ∧ t.sourceAnswers = s.sourceAnswers

/-- CONN_OPEN draws nothing from the source and closes nothing, whichever of its draws fails (R211). -/
theorem State.connOpen_leaves (s : State) : SourceSame s s.connOpen ∧ s.connOpen.closes = s.closes := by
  rcases State.connOpen_cases s with ⟨_, he⟩ | ⟨_, _, he⟩ | ⟨_, _, _, he⟩ | ⟨_, _, _, he⟩ <;> rw [he] <;>
    exact ⟨⟨rfl, rfl⟩, rfl⟩

/-- Nor does TX_ENQUEUE, refused or not, and it keeps `CONN_STATE` as well (R171). -/
theorem State.enqueue_leaves (type flags : Byte) (sidOp : BitVec 32) (payload : List Byte) (s : State) :
    SourceSame s (s.enqueue type flags sidOp payload) ∧
    (s.enqueue type flags sidOp payload).closes = s.closes ∧
    (s.enqueue type flags sidOp payload).connState = s.connState := by
  rcases State.enqueue_cases type flags sidOp payload s with
    ⟨_, he⟩ | ⟨_, _, he⟩ | ⟨_, _, _, he⟩ | ⟨_, _, _, he⟩ <;> rw [he] <;> exact ⟨⟨rfl, rfl⟩, rfl, rfl⟩

/-! ### The teardown (R272, R273, R274, R286) -/

/-- Settles O26: `State.teardown` is R272's list of writes. -/
theorem teardownReleasesEverything : Obligations.TeardownReleasesEverything := fun _ _ => rfl

/-- A CONN_CLOSE that completes was made on an open Connection (R215). -/
theorem execConnClose_opened {s t : State} (h : execConnClose s = .next t) : s.connState = .opened := by
  by_contra hc
  have hfault : execConnClose s = .fault .noConn := if_pos hc
  cases hfault.symm.trans h

/-- What a command does to the Connection: it closes nothing and keeps `CONN_STATE`, but for CONN_OPEN; or, with its
status set to OK, it ends by tearing an open Connection down (R274). -/
def ConnectionEnds (i : Instr) (s t : State) : Prop :=
  (t.closes = s.closes ∧ (i ≠ .connOpen → t.connState = s.connState)) ∨
  ∃ (r : TdReason) (u : State), t = u.teardown r ∧ r ≠ .none ∧
    s.connState = .opened ∧ u.closes = s.closes ∧ u.cmdStatus = .ok

theorem ConnectionEnds.kept {i : Instr} {s t : State} (hcloses : t.closes = s.closes)
    (hconn : t.connState = s.connState) : ConnectionEnds i s t :=
  .inl ⟨hcloses, fun _ => hconn⟩

/-- Every command, in any state: its sub-steps close nothing, and a teardown is the last thing it does. -/
theorem exec_connectionEnds {i : Instr} {s t : State} (h : exec i s = .next t) : ConnectionEnds i s t := by
  cases i with
  | connOpen =>
    rw [execConnOpen_next h]
    exact .inl ⟨s.connOpen_leaves.2, fun hne => absurd rfl hne⟩
  | connClose => exact .inr ⟨_, _, execConnClose_next h, by decide, execConnClose_opened h, rfl, rfl⟩
  | hdrDecode hb => cases h; exact .kept rfl rfl
  | hdrEncode len type flags sidOp => cases h; exact .kept rfl rfl
  | rxReady =>
    obtain ⟨ho, hdeliver⟩ := execRxReady_next h
    rcases State.deliverRx_ends hdeliver with ⟨hsame, _⟩ | ⟨r, u, rfl, hr, hsame⟩ <;>
      obtain ⟨_, hconn, _, hcmd, _⟩ := hsame.fields <;> obtain ⟨_, _, _, _, hcloses⟩ := hsame.outside
    · exact .kept hcloses hconn
    · exact .inr ⟨r, u, rfl, hr, ho, hcloses, hcmd⟩
  | dispatchDone v =>
    obtain ⟨ho, _, rfl⟩ := execDispatchDone_next h
    cases v with
    | accept => exact .kept rfl rfl
    | fail => exact .inr ⟨_, _, rfl, by decide, ho, rfl, rfl⟩
    | reserved b => exact .kept rfl rfl
  | txEnqueue type flags sidOp payload =>
    obtain ⟨_, rfl⟩ := execTxEnqueue_next h
    obtain ⟨_, hcloses, hconn⟩ := s.enqueue_leaves type flags sidOp payload
    exact .kept hcloses hconn
  | txReady =>
    obtain ⟨ho, _, rfl | hdeliver⟩ := execTxReady_next h
    · exact .kept rfl rfl
    · rcases State.deliverTx_ends hdeliver with ⟨hsame, _⟩ | ⟨r, u, rfl, hr, hsame, _⟩ <;>
        obtain ⟨_, hconn, _, hcmd, _, _, _, _, _, _, _, hcloses, _⟩ := hsame.fields
      · exact .kept hcloses hconn
      · exact .inr ⟨r, u, rfl, hr, ho, hcloses, hcmd⟩

/-- Settles O22: a command that closes ends in a teardown, whose writes are R272's. -/
theorem teardownHappensOncePerConnection : Obligations.TeardownHappensOncePerConnection := by
  intro i s t h
  rcases exec_connectionEnds h with hkept | ⟨r, u, rfl, hr, ho, hcloses, hcmd⟩
  · exact .inl hkept
  · exact .inr ⟨congrArg (· + 1) hcloses, ho, rfl, hr, hcmd, rfl, rfl, rfl, rfl, rfl⟩

/-! ### Reads from the source (R282; 43_connection.md R213) -/

/-- The bytes taken from the receive stream stay taken, in a teardown too (R68). -/
theorem RxEnds.taken_prefix {s t : State} (h : RxEnds s t) : s.rxTaken <+: t.rxTaken := by
  rcases h with ⟨⟨_, hpre⟩, _⟩ | ⟨r, u, rfl, _, _, hpre⟩ <;> exact hpre

/-- The writer has nothing to do with the source. -/
theorem TxEnds.sourceSame {s t : State} (h : TxEnds s t) : SourceSame s t := by
  rcases h with ⟨hsame, _⟩ | ⟨r, u, rfl, _, hsame, _⟩ <;>
    (obtain ⟨_, _, _, _, _, _, _, _, _, _, _, _, _, htaken, _, hsource, _⟩ := hsame.fields
     exact ⟨htaken, hsource⟩)

/-- Only RX_READY has to do with the source. -/
theorem exec_sourceSame {i : Instr} {s t : State} (hne : i ≠ .rxReady) (h : exec i s = .next t) :
    SourceSame s t := by
  cases i with
  | connOpen => rw [execConnOpen_next h]; exact s.connOpen_leaves.1
  | connClose => rw [execConnClose_next h]; exact ⟨rfl, rfl⟩
  | hdrDecode hb => cases h; exact ⟨rfl, rfl⟩
  | hdrEncode len type flags sidOp => cases h; exact ⟨rfl, rfl⟩
  | rxReady => exact absurd rfl hne
  | dispatchDone v =>
    obtain ⟨_, _, rfl⟩ := execDispatchDone_next h
    cases v <;> exact ⟨rfl, rfl⟩
  | txEnqueue type flags sidOp payload =>
    obtain ⟨_, rfl⟩ := execTxEnqueue_next h
    exact (s.enqueue_leaves type flags sidOp payload).1
  | txReady =>
    obtain ⟨_, _, rfl | hdeliver⟩ := execTxReady_next h
    · exact ⟨rfl, rfl⟩
    · exact (State.deliverTx_ends hdeliver).sourceSame

/-- Settles O21: RX_READY adds to the bytes taken, and the other commands leave them alone. -/
theorem onlyRxReadyReadsTheSource : Obligations.OnlyRxReadyReadsTheSource := by
  intro i s t h
  by_cases hi : i = .rxReady
  · subst hi
    obtain ⟨_, hdeliver⟩ := execRxReady_next h
    exact ⟨(State.deliverRx_ends hdeliver).taken_prefix, fun hne => absurd rfl hne⟩
  · have hsame := exec_sourceSame hi h
    exact ⟨by rw [hsame.1], fun _ => hsame⟩

/-! ### Several blocks (R290; 20_memory.md R75) -/

/-- The move of a list of blocks is one block's step, written back in its place. -/
theorem stepOne_eq_some_iff {k : Nat} {blocks after : List State} :
    stepOne k blocks = some after ↔
      ∃ s t, blocks[k]? = some s ∧ step s = .next t ∧ blocks.set k t = after := by
  unfold stepOne
  cases hk : blocks[k]? with
  | none => simp
  | some s => cases hstep : step s <;> simp [hstep]

/-- Settles O60: writing one place of a list keeps its length and every other place. -/
theorem blocksStepIndependently : Obligations.BlocksStepIndependently := by
  intro k blocks after h
  obtain ⟨s, t, hk, hstep, rfl⟩ := stepOne_eq_some_iff.1 h
  have hlt : k < blocks.length := (List.getElem?_eq_some_iff.1 hk).1
  exact ⟨List.length_set, fun j hj => List.getElem?_set_ne hj.symm, s, t, hk, List.getElem?_set_self hlt, hstep⟩

end Sys2Proof.Machine

/-! Reset (70_reset_and_hazards.md): the power-on state, and the parameters, which reset takes as given and every
command keeps. -/

namespace Sys2Proof.Machine

/-- Settles O17: `State.resetWith` lists R300's values, and the fresh `RX_HDR_BUF` holds no byte at any offset. -/
theorem powerOnState : Obligations.PowerOnState := by
  intro p
  have hbuf (k : Nat) : (State.resetWith p).rxHdrBuf.mem.load k = none := rfl
  exact ⟨rfl, rfl, rfl, rfl, rfl, rfl, rfl, rfl, hbuf, rfl, rfl, rfl, rfl, rfl⟩

/-! ### The parameters (R302) -/

/-- CONN_OPEN keeps the parameters, whether it opens the Connection or one of its draws fails. -/
@[simp] theorem State.connOpen_params (s : State) : s.connOpen.params = s.params := by
  rcases State.connOpen_cases s with ⟨_, he⟩ | ⟨_, _, he⟩ | ⟨_, _, _, he⟩ | ⟨_, _, _, he⟩ <;> simp [he]

@[simp] theorem State.enqueue_params (type flags : Byte) (sidOp : BitVec 32) (payload : List Byte) (s : State) :
    (s.enqueue type flags sidOp payload).params = s.params := by
  rcases State.enqueue_cases type flags sidOp payload s with
    ⟨_, he⟩ | ⟨_, _, he⟩ | ⟨_, _, _, he⟩ | ⟨_, _, _, he⟩ <;> simp [he]

@[simp] theorem State.verdict_params (v : Verdict) (s : State) : (s.verdict v).params = s.params := by
  cases v <;> rfl

/-- The receiver keeps the parameters, in a teardown too. -/
theorem RxEnds.params {s t : State} (h : RxEnds s t) : t.params = s.params := by
  rcases h with ⟨hsame, _⟩ | ⟨r, u, rfl, _, hsame⟩ <;> exact hsame.fields.1

/-- The writer keeps the parameters, in a teardown too. -/
theorem TxEnds.params {s t : State} (h : TxEnds s t) : t.params = s.params := by
  rcases h with ⟨hsame, _⟩ | ⟨r, u, rfl, _, hsame, _⟩ <;> exact hsame.fields.1

/-- Every command keeps the parameters, in any state. -/
theorem exec_params {i : Instr} {s t : State} (h : exec i s = .next t) : t.params = s.params := by
  cases i with
  | connOpen => rw [execConnOpen_next h, State.connOpen_params]
  | connClose => rw [execConnClose_next h, State.teardown_params, State.returnStatus_params]
  | hdrDecode hb => cases h; rfl
  | hdrEncode len type flags sidOp => cases h; rfl
  | rxReady => exact (State.deliverRx_ends (execRxReady_next h).2).params
  | dispatchDone v =>
    obtain ⟨_, _, rfl⟩ := execDispatchDone_next h
    exact s.verdict_params v
  | txEnqueue type flags sidOp payload =>
    obtain ⟨_, rfl⟩ := execTxEnqueue_next h
    exact s.enqueue_params type flags sidOp payload
  | txReady =>
    obtain ⟨_, _, rfl | hdeliver⟩ := execTxReady_next h
    · rfl
    · exact (State.deliverTx_ends hdeliver).params

/-- Settles O18: taking a command from the port keeps the parameters, and so does running it. -/
theorem parametersNeverChange : Obligations.ParametersNeverChange := by
  refine ⟨fun p => rfl, fun s t h => ?_⟩
  rcases step_cases h with ⟨_, rfl⟩ | ⟨_, rest, _, rfl⟩ | ⟨i, rest, _, hexec⟩
  · rfl
  · rw [State.returnStatus_params, State.setPort_params]
  · rw [exec_params hexec, State.setPort_params]

end Sys2Proof.Machine
